-- ==== Sys2Proof/Word.lean ====
section
/-!
DEFINITION. The smallest unit of both links, a byte, and triples of one value for each colour channel
(spec/00_scope.md, Conventions).
-/
namespace Sys2Proof

/-- One byte of a link frame (R171). -/
abbrev Byte := BitVec 8

/-- One value for each of the channels R, G and B (00_scope, Names). -/
structure RGB (α : Type) where
  r : α
  g : α
  b : α
  deriving DecidableEq, Repr

namespace RGB

def map {α β : Type} (f : α → β) (x : RGB α) : RGB β := ⟨f x.r, f x.g, f x.b⟩

def toList {α : Type} (x : RGB α) : List α := [x.r, x.g, x.b]

def all {α : Type} (p : α → Bool) (x : RGB α) : Bool := p x.r && p x.g && p x.b

def zipWith {α β γ : Type} (f : α → β → γ) (x : RGB α) (y : RGB β) : RGB γ :=
  ⟨f x.r y.r, f x.g y.g, f x.b y.b⟩

end RGB

end Sys2Proof
end

