-- ==== Sys2Proof/Syntax.lean ====
section
/-!
DEFINITION. The commands of the block: one constructor for each row of spec/opcode_table.json, with the
operands its event or request carries.
-/
namespace Sys2Proof

/-- The part's two serial links (00_scope, Connections). -/
inductive LinkId where
  | station
  | image
  deriving DecidableEq, Repr

/-- What a bin's occupancy sensor reads (R125, R127). -/
inductive Occupancy where
  | empty
  | occupied
  deriving DecidableEq, Repr

/-- The part's commands. A request carries its frame's tag and body (R171, R183); an event carries what its
signal line brings. -/
inductive Instr where
  -- requests of the host over the Station link (R183, kind table)
  | orderSubmit (tag : Byte) (body : List Byte)
  | orderQuery (tag : Byte) (body : List Byte)
  | orderCancel (tag : Byte) (body : List Byte)
  | orderPriority (tag : Byte) (body : List Byte)
  | orderCollect (tag : Byte) (body : List Byte)
  | magLoad (tag : Byte) (body : List Byte)
  | magUnload (tag : Byte) (body : List Byte)
  | calibrate (tag : Byte) (body : List Byte)
  | sizeWrite (tag : Byte) (body : List Byte)
  | sizeRead (tag : Byte) (body : List Byte)
  | profileWrite (tag : Byte) (body : List Byte)
  | profileRead (tag : Byte) (body : List Byte)
  | ladderWrite (tag : Byte) (body : List Byte)
  | ladderRead (tag : Byte) (body : List Byte)
  | priceWrite (tag : Byte) (body : List Byte)
  | priceRead (tag : Byte) (body : List Byte)
  | windowWrite (tag : Byte) (body : List Byte)
  | windowRead (tag : Byte) (body : List Byte)
  | settingWrite (tag : Byte) (body : List Byte)
  | settingRead (tag : Byte) (body : List Byte)
  | settingsSave (tag : Byte) (body : List Byte)
  | status (tag : Byte) (body : List Byte)
  | pathClear (tag : Byte) (body : List Byte)
  | pathClearButton
  | sorterResume (tag : Byte) (body : List Byte)
  | headReset (tag : Byte) (body : List Byte)
  | reset (tag : Byte) (body : List Byte)
  | resetTakesEffect
  | powerOnReset
  -- link events
  | stationFrameReceived (bytes : List Byte)
  | imageFrameReceived (bytes : List Byte)
  | frameGapTimeout (link : LinkId)
  | transmitComplete
  | fetchSent
  | fetchTimeout (fetchTag : Fin 8)
  | quarantineExpiry (fetchTag : Fin 8)
  -- exposure head and exposure feed
  | warmUpCompletion
  | headFaultEvent
  | exposureRunStart
  | exposureFeedStep
  | flushTimerExpiry
  -- magazines and web
  | threadedEvent
  | paperEndSensor
  -- cutter
  | cutterFeedStep (markSeen : Bool)
  | cutCompletion
  | bladeJam
  -- sorter
  | densitometerReading (red green blue : BitVec 10)
  | dropStart
  | dropCompletion
  | transportJam
  | binSensorEvent (bin : Fin 26) (samples : List Occupancy)
  -- timers and settings memory
  | idleTimerExpiry
  | saveStageCompletion
  | memoryWriteFault
  deriving DecidableEq, Repr

end Sys2Proof
end

