-- ==== Sys2Proof/Decode.lean ====
section
/-!
DEFINITION. The command a word of the opcode table spells. No row of spec/opcode_table.json gives its command any
bits (all 54 have an empty list of fields), so no word spells a command (log 26). Requests are recognised by the kind
byte of their frame instead: see Machine/Operands.lean and Machine/Link.lean.
-/
namespace Sys2Proof

/-- No row gives bits, so no word spells a command. -/
def decodeTableWord (_nbits _w : Nat) : Option Instr := none

end Sys2Proof
end

