-- ==== Sys2Proof/Machine/Tables.lean ====
section
/-!
DEFINITION. The tables and settings that SET saves and loads as one image: size table (R44), paper profiles
(R46), calibration ladder (R47), price table (R143), routing windows (R129), settings (R184).
-/
namespace Sys2Proof.Machine

/-- The three paper surfaces, in the order of their codes (R183). -/
inductive Surface where
  | gloss
  | matte
  | lustre
  deriving DecidableEq, Repr

/-- One entry of the size table (R44). -/
structure SizeEntry where
  enabled : Bool
  width   : Nat
  lf      : Nat
  gap     : Nat
  offset  : Int
  deriving DecidableEq, Repr

/-- The calibration ladder: 16 thresholds and 16 step values (R47). -/
structure Ladder where
  thresholds : List Nat
  steps      : List Int
  deriving DecidableEq, Repr

/-- One of the tiers 2, 3 and 4 of a price entry; threshold 0 disables it (R143). -/
structure Tier where
  threshold : Nat
  price     : Nat
  deriving DecidableEq, Repr

/-- One entry of the price table (R143). -/
structure PriceEntry where
  enabled : Bool
  price1  : Nat
  tier2   : Tier
  tier3   : Tier
  tier4   : Tier
  deriving DecidableEq, Repr

/-- One routing window (R129). -/
structure Window where
  enabled  : Bool
  base     : Nat
  k        : Nat
  firstBin : Nat
  binCount : Nat
  mask     : BitVec 8
  deriving DecidableEq, Repr

/-- The live settings (R184). A flag holds 0 for off and 1 for on, as its value is written and read. -/
structure Settings where
  calibrationRequired : Nat
  calibrateOnLoad     : Nat
  changeoverPriority  : Nat
  densityStep         : Nat
  colourStep          : Nat
  linePeriod          : Nat
  readAhead           : Nat
  fetchTimeout        : Nat
  pathFixed           : Nat
  loopMax             : Nat
  lowMark             : Nat
  flushDelay          : Nat
  markWindow          : Nat
  markOffset          : Nat
  binCapacity         : Nat
  overflowCapacity    : Nat
  rejectCapacity      : Nat
  surcharge           : Nat
  roundingUnit        : Nat
  remakeLimit         : Nat
  idleTimer           : Nat
  /-- priorities of the notice kinds 0xC0..0xD1, in the order of the kinds -/
  noticePriorities    : List Nat
  deriving DecidableEq, Repr

/-- The image that SETTINGS_SAVE stores and power-on loads (R186). -/
structure SettingsImage where
  settings : Settings
  sizes    : List SizeEntry
  profiles : List (RGB Nat)
  ladder   : Ladder
  prices   : List PriceEntry
  windows  : List Window
  deriving DecidableEq, Repr

/-- The default of every setting (R184); the notice priorities are those of R183. -/
def Settings.default : Settings where
  calibrationRequired := 1
  calibrateOnLoad := 1
  changeoverPriority := 12
  densityStep := 25
  colourStep := 15
  linePeriod := 20000
  readAhead := 32
  fetchTimeout := 40
  pathFixed := 4200
  loopMax := 3000
  lowMark := 50000
  flushDelay := 20
  markWindow := 15
  markOffset := 300
  binCapacity := 50
  overflowCapacity := 100
  rejectCapacity := 100
  surcharge := 25
  roundingUnit := 5
  remakeLimit := 3
  idleTimer := 30
  noticePriorities := [10, 8, 6, 9, 7, 9, 10, 4, 5, 12, 12, 11, 6, 7, 12, 3, 2, 8]

/-- A size-table entry without a format marker (R48). -/
def SizeEntry.unset : SizeEntry := ⟨false, 89, 400, 0, 0⟩

/-- The ladder without a format marker: T_i = 32 + 64 × i, V_i = (7 − i) × 16 (R48). -/
def Ladder.default : Ladder where
  thresholds := (List.range 16).map fun i => 32 + 64 * i
  steps := (List.range 16).map fun (i : Nat) => (7 - (i : Int)) * 16

/-- A price-table entry without a format marker (R157). -/
def PriceEntry.unset : PriceEntry := ⟨false, 0, ⟨0, 0⟩, ⟨0, 0⟩, ⟨0, 0⟩⟩

/-- A routing window without a format marker: disabled (R141); its other fields are a DESIGN CHOICE, log 8. -/
def Window.unset : Window := ⟨false, 0, 0, 0, 1, 0⟩

/-- What SET takes when the memory holds no valid marker (R187). -/
def SettingsImage.default : SettingsImage where
  settings := Settings.default
  sizes := List.replicate 16 SizeEntry.unset
  profiles := List.replicate 8 ⟨2048, 2048, 2048⟩
  ladder := Ladder.default
  prices := List.replicate 48 PriceEntry.unset
  windows := List.replicate 8 Window.unset

end Sys2Proof.Machine
end

