-- ==== Sys2Proof/Config.lean ====
section
/-!
DEFINITION. The free values: what the spec leaves open and no proof may know. None has a body, so no theorem
can rest on a value of one.
-/
namespace Sys2Proof.Config

/-- The fields of message bodies whose code for an absent value the spec does not give: R183 gives codes for an
absent order, frame, bin, index and line only (log 6). -/
inductive OpenField where
  | magazine
  | cutKind
  | waiting
  | coordinate
  | loop
  | flushTime
  | speedClass
  | limited
  | reading
  | printLine
  | code
  | dwell
  | pieceKind
  | imageId
  | sourceRow
  deriving DecidableEq, Repr

end Sys2Proof.Config

namespace Sys2Proof

/-- The number sent in a field whose value is absent or not stated by the spec (log 6, log 15, log 23). -/
opaque Config.openCode : Config.OpenField → Nat

/-- The time in milliseconds left on the flush timer when it is reported, before it is bounded by the delay the
timer was started with; the argument is a fresh number at each report (log 5). -/
opaque Config.flushTimeLeft : Nat → Nat

/-- The bytes of the stored settings image, over which the format marker's CRC-16 is taken: the spec gives the
image no byte layout (R186, log 7). -/
opaque Config.imageBytes : Machine.SettingsImage → List Byte

end Sys2Proof
end

