-- ==== Sys2Proof/Machine/State.lean ====
section
/-!
DEFINITION. The state of the MLC-410: the records of its ten blocks, the ports it drives, the queue of waiting
commands, and the state after power-on reset.
-/
namespace Sys2Proof.Machine

/-- The two magazine positions, in the order of their codes (R183). -/
inductive Mag where
  | a
  | b
  deriving DecidableEq, Repr

/-! ### Orders (chapter 1) -/

/-- The crop of a line (R3). -/
structure Crop where
  x0 : Nat
  y0 : Nat
  w  : Nat
  h  : Nat
  deriving DecidableEq, Repr

/-- Why a line failed (R3, R14). -/
inductive FailCause where
  | remakeLimit
  | imageMissing
  | rowRange
  deriving DecidableEq, Repr

/-- A line record (R3). `paperWait` is SCH's paper-wait mark of the line (R41). -/
structure Line where
  imageId   : Nat
  width     : Nat
  height    : Nat
  crop      : Option Crop
  size      : Nat
  surface   : Surface
  n         : Nat
  density   : Int
  cyan      : Int
  magenta   : Int
  yellow    : Int
  price     : Nat
  d         : Nat
  f         : Nat
  r         : Nat
  failed    : Option FailCause
  paperWait : Bool
  deriving DecidableEq, Repr

/-- The five states of an occupied slot (R2, 1.4). -/
inductive OrderState where
  | accepted
  | active
  | complete
  | failing
  | failed
  deriving DecidableEq, Repr

/-- PRC's captured price terms (R149); present exactly while the slot is occupied, so kept in the order record. -/
structure PriceTerms where
  surcharge    : Nat
  roundingUnit : Nat
  deriving DecidableEq, Repr

/-- An order record (R2). The empty bins list is the absent one: from the first reservation on it holds a bin. -/
structure Order where
  number             : Nat
  subTag             : Nat
  source             : Nat
  priority           : Nat
  express            : Bool
  discount           : Nat
  seq                : Nat
  state              : OrderState
  lines              : List Line
  bins               : List Nat
  overflowUsed       : Bool
  quote              : Nat
  settled            : Option Nat
  correctionsClamped : Bool
  discountClamped    : Bool
  priceCapped        : Bool
  binEmptiedEarly    : Bool
  terms              : PriceTerms
  deriving DecidableEq, Repr

/-- ORT: 64 order slots (R1) and the intake sequence counter (R12). -/
structure Ort where
  slots : List (Option Order)
  seq   : Nat
  deriving DecidableEq, Repr

/-! ### Frames and the exposure queue (chapter 2) -/

/-- What a print frame names: its order's slot and number, the line index 1..8, the copy number and the size
code (R27). -/
structure PrintRef where
  slot   : Nat
  number : Nat
  line   : Nat
  copy   : Nat
  size   : Nat
  deriving DecidableEq, Repr

/-- The kind of a frame with the fields only that kind has (R27). -/
inductive Job where
  | print (ref : PrintRef)
  | strip
  deriving DecidableEq, Repr

/-- The speed class of a run (R52). -/
inductive SpeedClass where
  | normal
  | slow
  deriving DecidableEq, Repr

/-- What EXU writes into a frame at its exposure start (R53). -/
structure Exposure where
  codes   : RGB Nat
  dwells  : RGB Nat
  speed   : SpeedClass
  limited : Bool
  deriving DecidableEq, Repr

/-- A frame record (R27). `deadMark` is the dead mark of a strip (R119); a print never carries it. -/
structure Frame where
  number       : Nat
  job          : Job
  mag          : Mag
  lf           : Nat
  gap          : Nat
  live         : Bool
  deadMark     : Bool
  exposure     : Option Exposure
  unregistered : Bool
  deriving DecidableEq, Repr

/-- Changeover-pending with its target (R40). -/
inductive Changeover where
  | clear
  | pending (target : Mag)
  | asked (target : Mag)
  deriving DecidableEq, Repr

/-- The strip mark of a magazine (R34). -/
inductive StripMark where
  | none
  | awaiting
  | created (frame : Nat)
  deriving DecidableEq, Repr

/-- SCH: the exposure queue, head first (R24), whether the head is committed (R36), changeover-pending (R40), the
strip marks (R34) and the frame counter (R26). -/
structure Sch where
  queue      : List Frame
  committed  : Bool
  changeover : Changeover
  markA      : StripMark
  markB      : StripMark
  counter    : Nat
  deriving DecidableEq, Repr

/-! ### Image fetch (chapter 4) -/

/-- What a fetch tag remembers of its fetch (R67). -/
structure FetchInfo where
  frame    : Nat
  imageId  : Nat
  row      : Nat
  outWidth : Nat
  deriving DecidableEq, Repr

/-- A slot of the line store (R66). -/
inductive LineSlot where
  | empty
  | awaited (frame first last row : Nat) (tag : Option Nat)
  | filled (frame first last row : Nat) (pixels : List (RGB Byte))
  deriving DecidableEq, Repr

/-- A fetch tag (R67). An OUTSTANDING tag without a slot carries the discard mark. Its fetch timer is absent until
its FETCH has been sent (R181); the timers hold the milliseconds they were started with (log 5). -/
inductive FetchTag where
  | free
  | outstanding (info : FetchInfo) (slot : Option Nat) (timer : Option Nat)
  | expired (info : FetchInfo) (timer : Nat)
  deriving DecidableEq, Repr

/-- IFU's current frame with its next line due (R69, R70). -/
structure Current where
  frame : Nat
  job   : Job
  mag   : Mag
  lf    : Nat
  next  : Nat
  deriving DecidableEq, Repr

/-- IFU: line store, fetch tags, current frame, whether the committed head is primed (R72), expiry count (R83). -/
structure Ifu where
  slots    : List LineSlot
  tags     : List FetchTag
  current  : Option Current
  primed   : Bool
  expiries : Nat
  deriving DecidableEq, Repr

/-! ### Exposure (chapter 3) -/

/-- The exposure head (R54). -/
inductive HeadState where
  | off
  | warming
  | ready
  | exposing
  | fault
  deriving DecidableEq, Repr

/-- EXU: size table, paper profiles, calibration ladder and head state. -/
structure Exu where
  sizes    : List SizeEntry
  profiles : List (RGB Nat)
  ladder   : Ladder
  head     : HeadState
  deriving DecidableEq, Repr

/-! ### Magazines and web (chapter 5) -/

/-- The state of a magazine (R85). -/
inductive MagState where
  | absent
  | calNeeded
  | ready
  | empty
  deriving DecidableEq, Repr

/-- A magazine record (R85). -/
structure MagRecord where
  state       : MagState
  width       : Nat
  surface     : Surface
  remaining   : Nat
  profile     : Nat
  offsets     : RGB Int
  indices     : RGB (Option Nat)
  lowReported : Bool
  deriving DecidableEq, Repr

/-- The six web states, in the order of the table of section 5.3. -/
inductive WebState where
  | unthreaded
  | threading
  | ready
  | changeover
  | fault
  | clearing
  deriving DecidableEq, Repr

/-- The web state of a frame on the web map (R97). -/
inductive FrameWeb where
  | exposing
  | exposed
  | spoiled
  deriving DecidableEq, Repr

/-- The mark status of a web map entry (R97). -/
inductive MarkStatus where
  | pending
  | printed
  | none
  deriving DecidableEq, Repr

/-- A web map entry (R97). -/
structure WebEntry where
  frame     : Frame
  start     : Nat
  webState  : FrameWeb
  mark      : MarkStatus
  markCoord : Option Nat
  deriving DecidableEq, Repr

/-- The exposure run in progress: the number of its next step, the Lf and G it runs for (R102), and the line period
in use, captured at the start (R49, R52). -/
structure Run where
  step   : Nat
  lf     : Nat
  gap    : Nat
  period : Nat
  deriving DecidableEq, Repr

/-- WEB. `map` is the web map, oldest entry first. `flushTimer` holds the seconds the running timer was armed with
(R104), `flush` the flush target of a flush in progress (R105). -/
structure Web where
  magA       : MagRecord
  magB       : MagRecord
  active     : Option Mag
  threading  : Option Mag
  ask        : Option Mag
  state      : WebState
  fIn        : Nat
  c          : Nat
  map        : List WebEntry
  flushTimer : Option Nat
  flush      : Option Nat
  run        : Option Run
  deriving DecidableEq, Repr

/-! ### Cutter (chapter 6) -/

/-- The cutter states (R109). -/
inductive CutterState where
  | idle
  | feeding
  | cutting
  | hold
  | fault
  deriving DecidableEq, Repr

/-- The two kinds of cut (R108). -/
inductive CutKind where
  | leading
  | trailing
  deriving DecidableEq, Repr

/-- The cut the cutter works toward (R108). -/
structure NextCut where
  kind    : CutKind
  frame   : Nat
  nominal : Nat
  target  : Int
  deriving DecidableEq, Repr

/-- The decision on a gap (R108). -/
inductive GapDecision where
  | undecided
  | found
  | missed
  | unmarked
  deriving DecidableEq, Repr

/-- A gap record (R108). `offset` is absent while the decision is OPEN (`undecided`). `window` is the mark window
read when the search of the gap began (R114), absent before. -/
structure GapRecord where
  frame     : Nat
  gapStart  : Nat
  gap       : Nat
  markCoord : Option Nat
  decision  : GapDecision
  offset    : Option Int
  window    : Option Nat
  deriving DecidableEq, Repr

/-- The carried record (R108), with the mark status its entry had when it left the web map (log 22). -/
structure Carried where
  gap  : GapRecord
  mark : MarkStatus
  deriving DecidableEq, Repr

/-- CUT (R108). -/
structure Cut where
  state       : CutterState
  offset      : Int
  missCount   : Nat
  nextCut     : Option NextCut
  leadingMade : Bool
  gaps        : List GapRecord
  carried     : Option Carried
  markRun     : Nat
  markFirst   : Nat
  abandoned   : Nat
  deriving DecidableEq, Repr

/-! ### Sorter (chapter 7) -/

/-- The reading state of a piece (R123). -/
inductive ReadingState where
  | none
  | awaited
  | taken
  deriving DecidableEq, Repr

/-- A piece in the transit queue (R123): the frame record WEB handed over, with its web state. -/
structure Piece where
  frame    : Frame
  webState : FrameWeb
  reading  : ReadingState
  routed   : Option Nat
  deriving DecidableEq, Repr

/-- The states of an order bin (R125). -/
inductive BinState where
  | free
  | assigned
  | full
  | emptying
  | unclaimed
  deriving DecidableEq, Repr

/-- The filter of a bin's occupancy sensor (R127): the filtered reading, and the last sample with the number of
equal samples in a row, counted to 3. -/
structure Sensor where
  filtered : Option Occupancy
  last     : Option Occupancy
  count    : Nat
  deriving DecidableEq, Repr

/-- An order bin, 0..23 (R125). -/
structure OrderBin where
  state  : BinState
  owner  : Option Nat
  count  : Nat
  sensor : Sensor
  deriving DecidableEq, Repr

/-- A holding bin: OPEN or FULL (R125). -/
structure HoldBin where
  full   : Bool
  count  : Nat
  sensor : Sensor
  deriving DecidableEq, Repr

/-- The sorter states (R137). -/
inductive SorterState where
  | run
  | hold
  | fault
  deriving DecidableEq, Repr

/-- SRT. `transit` is the transit queue, head first; `jammed` says that the head is the jammed piece (R138). -/
structure Srt where
  transit   : List Piece
  dropping  : Bool
  jammed    : Bool
  state     : SorterState
  bins      : List OrderBin
  overflow  : HoldBin
  reject    : HoldBin
  windows   : List Window
  discards  : Nat
  ended     : Nat
  unregDone : Nat
  deriving DecidableEq, Repr

/-! ### Prices, settings and link (chapters 8, 10, 11) -/

/-- PRC: the price table; entry 3 × size code + surface code (R143). -/
structure Prc where
  prices : List PriceEntry
  deriving DecidableEq, Repr

/-- The settings memory: the CRC its format marker carries, absent when cleared or missing, and the stored image
(R186, R187). -/
structure SettingsMemory where
  marker : Option (BitVec 16)
  image  : SettingsImage
  deriving DecidableEq, Repr

/-- A save in progress: the image copied at SETTINGS_SAVE and the stage being written, 1 to 3 (R186). -/
structure SaveJob where
  image : SettingsImage
  stage : Nat
  deriving DecidableEq, Repr

/-- The last save outcome (R186). -/
inductive SaveOutcome where
  | none
  | done
  | failed
  deriving DecidableEq, Repr

/-- SET: live settings, settings memory, save in progress (the save state is SAVING while one is), last outcome. -/
structure SettingsStore where
  settings : Settings
  memory   : SettingsMemory
  save     : Option SaveJob
  outcome  : SaveOutcome
  deriving DecidableEq, Repr

/-- The part's power state (R182, R188). -/
inductive PowerState where
  | active
  | standby
  | waking
  deriving DecidableEq, Repr

/-- The states of a receive framer (R172). -/
inductive FramerPhase where
  | hunt
  | header
  | body
  | check
  deriving DecidableEq, Repr

/-- A receive framer (R172): its state, the bytes of the frame in progress, and the check computed so far. -/
structure Framer where
  phase  : FramerPhase
  header : List Byte
  body   : List Byte
  check  : List Byte
  crc    : BitVec 16
  deriving DecidableEq, Repr

/-- A request frame that waits to be carried out (R173). -/
structure Request where
  kind : Byte
  tag  : Byte
  body : List Byte
  deriving DecidableEq, Repr

/-- A frame the Station link sends. `resetReply` marks the reply of a RESET carried out, whose last byte makes the
reset take effect (R180). -/
structure OutFrame where
  kind       : Byte
  tag        : Byte
  body       : List Byte
  resetReply : Bool
  deriving DecidableEq, Repr

/-- The notice kinds 0xC0..0xD1, in the order of their codes (R183). -/
inductive NoticeKind where
  | orderDone
  | paperNeeded
  | magLow
  | magEmpty
  | calResult
  | frameLost
  | lineFailed
  | exposureLimited
  | cutMarkMissed
  | cutterFault
  | sorterFault
  | rejectFull
  | overflowUsed
  | binRemovedEarly
  | headFault
  | awake
  | strayData
  | changeoverDone
  deriving DecidableEq, Repr

/-- An entry of the notice queue (R177). -/
structure Notice where
  kind       : NoticeKind
  priority   : Nat
  occurrence : Nat
  body       : List Byte
  deriving DecidableEq, Repr

/-- A FETCH frame for the Image link transmitter: its tag and body (R183). -/
structure FetchFrame where
  tag  : Nat
  body : List Byte
  deriving DecidableEq, Repr

/-- LNK (chapter 10). `idleTimer` holds the minutes the running idle timer was started with (R188). -/
structure Lnk where
  power          : PowerState
  stationRx      : Framer
  imageRx        : Framer
  waiting        : List Request
  replies        : List OutFrame
  notices        : List Notice
  occurrence     : Nat
  overrun        : Bool
  stationCrc     : Nat
  stationFraming : Nat
  imageCrc       : Nat
  imageFraming   : Nat
  rxOverruns     : Nat
  tx             : Option OutFrame
  imageTx        : Option FetchFrame
  imageWaiting   : List FetchFrame
  resetPending   : Bool
  idleTimer      : Option Nat
  deriving DecidableEq, Repr

/-! ### Ports and the state -/

/-- What the head is given for one print line (R55, R73, R75). -/
inductive HeadLine where
  | row (pixels : List (RGB Byte))
  | patch
  | dark
  deriving DecidableEq, Repr

/-- What the part drives on its output connections (00_scope, Connections). -/
inductive PortOut where
  | stationFrame (bytes : List Byte)
  | imageFrame (bytes : List Byte)
  | headSetup (dwells : RGB Nat) (period : Nat)
  | headLine (k : Nat) (data : HeadLine)
  | headMark
  | headWarmUp
  | headOff
  | exposureRun (steps period : Nat)
  | flushFeed (target period : Nat)
  | exposureStop
  | threadFeeder (m : Mag)
  | cutterFeed (target : Int)
  | bladeCut
  | cutterStop
  | readDensitometer
  | drop (bin : Nat)
  | transportStop
  | clearMarker
  | writeImage
  | writeMarker
  deriving DecidableEq, Repr

/-- The tests that the event being carried out has called for: SCH's selection pass (R30), the changeover ask test
(R40), WEB's run test (R99, R100), IFU's look at the window (R71), the flush arming test (R104). All are clear
between steps (log 3). -/
structure Due where
  pass   : Bool
  ask    : Bool
  run    : Bool
  window : Bool
  flush  : Bool
  deriving DecidableEq, Repr

/-- No test is called for. -/
def Due.none : Due := ⟨false, false, false, false, false⟩

/-- No event stops the part: each fault the spec names is a next state (INVENTORY.md, Faults), so this type has no
constructor and no meaning can answer a fault. -/
inductive Fault where
  deriving DecidableEq, Repr

/-- Why a command has no meaning here. -/
inductive Refusal where
  /-- raised by an arm of exec whose command is not modelled yet; no arm does. Safe: the model stops. -/
  | notModelled (mnemonic : String)
  deriving DecidableEq, Repr

end Sys2Proof.Machine

namespace Sys2Proof.Machine

/-- The whole part. `ports` is what the latest step drove; `due` the tests still to be made inside a step; `free`
the number of free values drawn so far (log 5); `pending` the commands that wait, first in, first out. -/
structure State where
  lnk     : Lnk
  ort     : Ort
  sch     : Sch
  ifu     : Ifu
  exu     : Exu
  web     : Web
  cut     : Cut
  srt     : Srt
  prc     : Prc
  set     : SettingsStore
  ports   : List PortOut
  due     : Due
  free    : Nat
  pending : List Sys2Proof.Instr
  deriving DecidableEq, Repr

/-- A framer that hunts for a start byte (R172); the partial frame is empty (log 8). -/
def Framer.hunting : Framer := ⟨.hunt, [], [], [], 0xFFFF⟩

/-- LNK after power-on reset (R182; log 8). -/
def Lnk.atReset : Lnk where
  power := .waking
  stationRx := Framer.hunting
  imageRx := Framer.hunting
  waiting := []
  replies := []
  notices := []
  occurrence := 0
  overrun := false
  stationCrc := 0
  stationFraming := 0
  imageCrc := 0
  imageFraming := 0
  rxOverruns := 0
  tx := none
  imageTx := none
  imageWaiting := []
  resetPending := false
  idleTimer := none

/-- A magazine record after power-on reset (R107). -/
def MagRecord.atReset : MagRecord where
  state := .absent
  width := 89
  surface := .gloss
  remaining := 0
  profile := 0
  offsets := ⟨0, 0, 0⟩
  indices := ⟨none, none, none⟩
  lowReported := false

/-- WEB after power-on reset (R107). -/
def Web.atReset : Web where
  magA := MagRecord.atReset
  magB := MagRecord.atReset
  active := none
  threading := none
  ask := none
  state := .unthreaded
  fIn := 0
  c := 0
  map := []
  flushTimer := none
  flush := none
  run := none

/-- SCH after power-on reset and after RESET (R43). -/
def Sch.atReset : Sch := ⟨[], false, .clear, .none, .none, 0⟩

/-- ORT after power-on reset and after RESET (R23). -/
def Ort.atReset : Ort := ⟨List.replicate 64 none, 0⟩

/-- IFU after power-on reset (R84). -/
def Ifu.atReset : Ifu := ⟨List.replicate 64 .empty, List.replicate 8 .free, none, false, 0⟩

/-- CUT after power-on reset (R121). -/
def Cut.atReset : Cut := ⟨.idle, 0, 0, none, false, [], none, 0, 0, 0⟩

/-- A sensor before its first three agreeing samples (R127). -/
def Sensor.unread : Sensor := ⟨none, none, 0⟩

/-- SRT after power-on reset with the windows loaded (R141). -/
def Srt.atReset (windows : List Window) : Srt where
  transit := []
  dropping := false
  jammed := false
  state := .run
  bins := List.replicate 24 ⟨.free, none, 0, Sensor.unread⟩
  overflow := ⟨false, 0, Sensor.unread⟩
  reject := ⟨false, 0, Sensor.unread⟩
  windows := windows
  discards := 0
  ended := 0
  unregDone := 0

/-- Every block after power-on reset, with the settings and tables SET has loaded (R187). The head is WARMING (R58);
whether the part commands its warm-up then the spec does not say, and the model drives nothing (log 44). -/
def State.poweredOn (memory : SettingsMemory) (image : SettingsImage) : State where
  lnk := Lnk.atReset
  ort := Ort.atReset
  sch := Sch.atReset
  ifu := Ifu.atReset
  exu := ⟨image.sizes, image.profiles, image.ladder, .warming⟩
  web := Web.atReset
  cut := Cut.atReset
  srt := Srt.atReset image.windows
  prc := ⟨image.prices⟩
  set := ⟨image.settings, memory, none, .none⟩
  ports := []
  due := Due.none
  free := 0
  pending := []

/-- The part right after power-on reset with a settings memory that holds no format marker (R187; the memory's
content is a DESIGN CHOICE, log 7). -/
def State.reset : State :=
  State.poweredOn ⟨none, SettingsImage.default⟩ SettingsImage.default

end Sys2Proof.Machine
end

