-- ==== Sys2Proof/Machine/Operands.lean ====
section
/-!
DEFINITION. What bytes carry: numbers, link frames with their check, the receive framer, and the bodies of requests
and DATA frames (R171, R172, R183, 11.2).
-/
namespace Sys2Proof.Machine

/-! ### Numbers in bytes -/

/-- The number a field of bytes holds, least significant byte first (R171). -/
def num : List Byte → Nat
  | [] => 0
  | b :: bs => b.toNat + 256 * num bs

/-- A one-byte field. -/
def le1 (n : Nat) : List Byte := [BitVec.ofNat 8 n]

/-- A two-byte field, least significant byte first (R171). -/
def le2 (n : Nat) : List Byte := [BitVec.ofNat 8 n, BitVec.ofNat 8 (n / 256)]

/-- A four-byte field, least significant byte first (R171). -/
def le4 (n : Nat) : List Byte :=
  [BitVec.ofNat 8 n, BitVec.ofNat 8 (n / 256), BitVec.ofNat 8 (n / 65536), BitVec.ofNat 8 (n / 16777216)]

/-- A signed one-byte field (two's complement, DEDUCED from "signed", log 9). -/
def le1s (x : Int) : List Byte := le1 (BitVec.ofInt 8 x).toNat

/-- A signed two-byte field. -/
def le2s (x : Int) : List Byte := le2 (BitVec.ofInt 16 x).toNat

/-- A signed four-byte field. -/
def le4s (x : Int) : List Byte := le4 (BitVec.ofInt 32 x).toNat

/-- The unsigned field of `len` bytes at offset `off` of a body. -/
def field (body : List Byte) (off len : Nat) : Nat := num ((body.drop off).take len)

/-- The signed byte at an offset of a body. -/
def signed1 (body : List Byte) (off : Nat) : Int := (BitVec.ofNat 8 (field body off 1)).toInt

/-- The signed two-byte field at an offset of a body. -/
def signed2 (body : List Byte) (off : Nat) : Int := (BitVec.ofNat 16 (field body off 2)).toInt

/-! ### Frames -/

/-- One bit of the check: generator polynomial 0x1021, most significant bit first (R171). -/
def crcBit (crc : BitVec 16) : BitVec 16 :=
  if crc.msb then (crc <<< 1) ^^^ 0x1021#16 else crc <<< 1

/-- The check after one more byte (R171). -/
def crcByte (crc : BitVec 16) (b : Byte) : BitVec 16 :=
  let c := crc ^^^ ((b.setWidth 16) <<< 8)
  crcBit (crcBit (crcBit (crcBit (crcBit (crcBit (crcBit (crcBit c)))))))

/-- The CRC-16 of a sequence of bytes, initial value 0xFFFF, no final inversion (R171). -/
def crc16 (bytes : List Byte) : BitVec 16 := bytes.foldl crcByte 0xFFFF#16

/-- The start byte of a frame (R171). -/
def startByte : Byte := 0xA5

/-- The header bytes of a frame: length, kind, tag (R171). -/
def frameHeader (kind tag : Byte) (body : List Byte) : List Byte := le2 body.length ++ [kind, tag]

/-- The bytes of a frame (R171). -/
def frameBytes (kind tag : Byte) (body : List Byte) : List Byte :=
  startByte :: (frameHeader kind tag body ++ body ++ le2 (crc16 (frameHeader kind tag body ++ body)).toNat)

/-- The greatest body length of an Image link frame (R171). -/
def maxImageBody : Nat := 12288

/-- What a byte brings about in a receive framer (R172). -/
inductive FrameEvent where
  | nothing
  | framingFault
  | crcFault
  | good (kind tag : Byte) (body : List Byte)
  deriving DecidableEq, Repr

/-- The length field of a frame in progress. -/
def Framer.length (fr : Framer) : Nat := num (fr.header.take 2)

/-- The framer takes one received byte; `max` is the link's greatest body length (R172). -/
def Framer.feed (max : Nat) (fr : Framer) (b : Byte) : Framer × FrameEvent :=
  match fr.phase with
  | .hunt =>
    if b = startByte then ({ Framer.hunting with phase := .header }, .nothing) else (fr, .nothing)
  | .header =>
    let fr' := { fr with header := fr.header ++ [b], crc := crcByte fr.crc b }
    if fr'.header.length < 4 then (fr', .nothing)
    else if max < fr'.length then (Framer.hunting, .framingFault)
    else if fr'.length = 0 then ({ fr' with phase := .check }, .nothing)
    else ({ fr' with phase := .body }, .nothing)
  | .body =>
    let fr' := { fr with body := fr.body ++ [b], crc := crcByte fr.crc b }
    if fr'.body.length < fr'.length then (fr', .nothing) else ({ fr' with phase := .check }, .nothing)
  | .check =>
    let check := fr.check ++ [b]
    if check.length < 2 then ({ fr with check := check }, .nothing)
    else if num check = fr.crc.toNat then
      (Framer.hunting, .good (fr.header.getD 2 0) (fr.header.getD 3 0) fr.body)
    else (Framer.hunting, .crcFault)

/-! ### Request bodies -/

/-- The kinds of the kind table with their fixed body lengths; none inside stands for ORDER_SUBMIT's variable length
(R183, 11.2). -/
def requestLength (kind : Nat) : Option (Option Nat) :=
  match kind with
  | 0x01 => some none
  | 0x02 => some (some 4)
  | 0x03 => some (some 4)
  | 0x04 => some (some 5)
  | 0x05 => some (some 4)
  | 0x10 => some (some 9)
  | 0x11 => some (some 1)
  | 0x12 => some (some 1)
  | 0x20 => some (some 10)
  | 0x21 => some (some 1)
  | 0x22 => some (some 7)
  | 0x23 => some (some 1)
  | 0x24 => some (some 48)
  | 0x25 => some (some 0)
  | 0x26 => some (some 17)
  | 0x27 => some (some 2)
  | 0x28 => some (some 10)
  | 0x29 => some (some 1)
  | 0x30 => some (some 5)
  | 0x31 => some (some 1)
  | 0x32 => some (some 0)
  | 0x38 => some (some 0)
  | 0x39 => some (some 0)
  | 0x3A => some (some 0)
  | 0x3B => some (some 0)
  | 0x3C => some (some 0)
  | _ => none

/-- A line as ORDER_SUBMIT carries it (R183). -/
structure SubLine where
  imageId : Nat
  width   : Nat
  height  : Nat
  crop    : Option Crop
  size    : Nat
  surface : Nat
  copies  : Nat
  density : Int
  cyan    : Int
  magenta : Int
  yellow  : Int
  deriving DecidableEq, Repr

/-- An order as ORDER_SUBMIT carries it (R183). -/
structure Submission where
  number   : Nat
  subTag   : Nat
  source   : Nat
  priority : Nat
  express  : Bool
  discount : Nat
  lines    : List SubLine
  deriving DecidableEq, Repr

/-- The seven bytes of a line after its crop. -/
def readLineTail (imageId width height : Nat) (crop : Option Crop) :
    List Byte → Option (SubLine × List Byte)
  | s :: u :: n :: d :: c :: m :: y :: rest =>
    some (⟨imageId, width, height, crop, s.toNat, u.toNat, n.toNat, d.toInt, c.toInt, m.toInt, y.toInt⟩, rest)
  | _ => none

/-- One line of an ORDER_SUBMIT body and the bytes after it; none where it is malformed (R6, R183). -/
def readLine : List Byte → Option (SubLine × List Byte)
  | i0 :: i1 :: i2 :: i3 :: w0 :: w1 :: h0 :: h1 :: marker :: rest =>
    let imageId := num [i0, i1, i2, i3]
    let width := num [w0, w1]
    let height := num [h0, h1]
    if marker = 0 then readLineTail imageId width height none rest
    else if marker = 1 then
      match rest with
      | x0 :: x1 :: y0 :: y1 :: a0 :: a1 :: b0 :: b1 :: rest' =>
        readLineTail imageId width height
          (some ⟨num [x0, x1], num [y0, y1], num [a0, a1], num [b0, b1]⟩) rest'
      | _ => none
    else none
  | _ => none

/-- `k` lines that use the bytes up exactly (R6). -/
def readLines : Nat → List Byte → Option (List SubLine)
  | 0, [] => some []
  | 0, _ :: _ => none
  | k + 1, bytes =>
    match readLine bytes with
    | some (l, rest) =>
      match readLines k rest with
      | some ls => some (l :: ls)
      | none => none
    | none => none

/-- An ORDER_SUBMIT body read as an order; none is BAD_FORMAT (R6). -/
def readSubmission : List Byte → Option Submission
  | n0 :: n1 :: n2 :: n3 :: t0 :: t1 :: source :: priority :: express :: discount :: count :: rest =>
    if express = 0 ∨ express = 1 then
      match readLines count.toNat rest with
      | some lines =>
        some ⟨num [n0, n1, n2, n3], num [t0, t1], source.toNat, priority.toNat, express == 1,
          discount.toNat, lines⟩
      | none => none
    else none
  | _ => none

/-- The bytes of a crop after its marker. -/
def cropBytes : Option Crop → List Byte
  | none => le1 0
  | some c => le1 1 ++ le2 c.x0 ++ le2 c.y0 ++ le2 c.w ++ le2 c.h

/-- The bytes of a submitted line (R183). -/
def SubLine.bytes (l : SubLine) : List Byte :=
  le4 l.imageId ++ le2 l.width ++ le2 l.height ++ cropBytes l.crop ++
    le1 l.size ++ le1 l.surface ++ le1 l.copies ++
    le1s l.density ++ le1s l.cyan ++ le1s l.magenta ++ le1s l.yellow

/-- The bytes of the lines of a submission, one after the other. -/
def linesBytes : List SubLine → List Byte
  | [] => []
  | l :: ls => l.bytes ++ linesBytes ls

/-- The body of an ORDER_SUBMIT (R183). -/
def Submission.bytes (s : Submission) : List Byte :=
  le4 s.number ++ le2 s.subTag ++ le1 s.source ++ le1 s.priority ++ le1 (if s.express then 1 else 0) ++
    le1 s.discount ++ le1 s.lines.length ++ linesBytes s.lines

/-! ### DATA bodies -/

/-- Pixels of three bytes each: red, green, blue (R183). -/
def pixelsOf : List Byte → List (RGB Byte)
  | r :: g :: b :: rest => ⟨r, g, b⟩ :: pixelsOf rest
  | _ => []

/-- A DATA response (R183). -/
structure DataMsg where
  status   : Nat
  imageId  : Nat
  row      : Nat
  count    : Nat
  pixels   : List (RGB Byte)
  /-- the pixel bytes present are exactly `count` pixels -/
  complete : Bool
  deriving DecidableEq, Repr

/-- A DATA body; none where it is too short to hold its nine bytes of fixed fields, whichever of them it still holds (log
15). -/
def readData (body : List Byte) : Option DataMsg :=
  if body.length < 9 then none
  else
    let count := field body 7 2
    some ⟨field body 0 1, field body 1 4, field body 5 2, count, pixelsOf (body.drop 9),
      body.length == 9 + 3 * count⟩

/-- The body of a FETCH (R71, R183). -/
def fetchBody (imageId row x0 w outWidth : Nat) : List Byte :=
  le4 imageId ++ le2 row ++ le2 x0 ++ le2 w ++ le2 outWidth

end Sys2Proof.Machine
end

