-- ==== Sys2Proof/Machine/Flags.lean ====
section
/-!
DEFINITION. Codes and flags of messages: status codes (R175), enumerations coded 0 upward in the order listed and
yes/no values (R183; where the order is inferred, log 9), packed flag bytes, absent values (R183, log 6).
-/
namespace Sys2Proof.Machine

/-! ### Status codes (R175) -/

def stOK : Nat := 0x00
def stAlready : Nat := 0x01
def stBusy : Nat := 0x02
def stRefusedState : Nat := 0x03
def stRange : Nat := 0x04
def stFull : Nat := 0x05
def stNotFound : Nat := 0x06
def stDuplicate : Nat := 0x07
def stBadFormat : Nat := 0x08
def stWaking : Nat := 0x09

/-! ### Enumerations -/

def yesNo (b : Bool) : Nat := if b then 1 else 0

def Mag.code : Mag → Nat
  | .a => 0
  | .b => 1

def Mag.ofCode : Nat → Option Mag
  | 0 => some .a
  | 1 => some .b
  | _ => none

def Mag.other : Mag → Mag
  | .a => .b
  | .b => .a

def Surface.code : Surface → Nat
  | .gloss => 0
  | .matte => 1
  | .lustre => 2

def Surface.ofCode : Nat → Option Surface
  | 0 => some .gloss
  | 1 => some .matte
  | 2 => some .lustre
  | _ => none

def OrderState.code : OrderState → Nat
  | .accepted => 0
  | .active => 1
  | .complete => 2
  | .failing => 3
  | .failed => 4

/-- The cause field of LINE_FAILED: the causes in the order of R14 (log 9). -/
def FailCause.code : FailCause → Nat
  | .remakeLimit => 0
  | .imageMissing => 1
  | .rowRange => 2

/-- The line failed field of R3: none, REMAKE_LIMIT, IMAGE_MISSING, ROW_RANGE. -/
def failedCode : Option FailCause → Nat
  | none => 0
  | some c => 1 + c.code

def SpeedClass.code : SpeedClass → Nat
  | .normal => 0
  | .slow => 1

def HeadState.code : HeadState → Nat
  | .off => 0
  | .warming => 1
  | .ready => 2
  | .exposing => 3
  | .fault => 4

def MagState.code : MagState → Nat
  | .absent => 0
  | .calNeeded => 1
  | .ready => 2
  | .empty => 3

def WebState.code : WebState → Nat
  | .unthreaded => 0
  | .threading => 1
  | .ready => 2
  | .changeover => 3
  | .fault => 4
  | .clearing => 5

def CutterState.code : CutterState → Nat
  | .idle => 0
  | .feeding => 1
  | .cutting => 2
  | .hold => 3
  | .fault => 4

def CutKind.code : CutKind → Nat
  | .leading => 0
  | .trailing => 1

def SorterState.code : SorterState → Nat
  | .run => 0
  | .hold => 1
  | .fault => 2

def ReadingState.code : ReadingState → Nat
  | .none => 0
  | .awaited => 1
  | .taken => 2

def BinState.code : BinState → Nat
  | .free => 0
  | .assigned => 1
  | .full => 2
  | .emptying => 3
  | .unclaimed => 4

/-- A filtered reading: EMPTY, OCCUPIED or none, in the order of R125 (log 9). -/
def readingCode : Option Occupancy → Nat
  | some .empty => 0
  | some .occupied => 1
  | none => 2

def Changeover.code : Changeover → Nat
  | .clear => 0
  | .pending _ => 1
  | .asked _ => 2

def StripMark.code : StripMark → Nat
  | .none => 0
  | .awaiting => 1
  | .created _ => 2

def SaveOutcome.code : SaveOutcome → Nat
  | .none => 0
  | .done => 1
  | .failed => 2

def PowerState.code : PowerState → Nat
  | .active => 0
  | .standby => 1
  | .waking => 2

/-- The kind of a frame: PRINT, STRIP, in the order of R27. -/
def Job.code : Job → Nat
  | .print _ => 0
  | .strip => 1

def NoticeKind.index : NoticeKind → Nat
  | .orderDone => 0
  | .paperNeeded => 1
  | .magLow => 2
  | .magEmpty => 3
  | .calResult => 4
  | .frameLost => 5
  | .lineFailed => 6
  | .exposureLimited => 7
  | .cutMarkMissed => 8
  | .cutterFault => 9
  | .sorterFault => 10
  | .rejectFull => 11
  | .overflowUsed => 12
  | .binRemovedEarly => 13
  | .headFault => 14
  | .awake => 15
  | .strayData => 16
  | .changeoverDone => 17

/-- The kind code of a notice (R183). -/
def NoticeKind.code (k : NoticeKind) : Byte := BitVec.ofNat 8 (0xC0 + k.index)

/-- The causes of MAG_EMPTY in the order of R89 and R183. -/
inductive EmptyCause where
  | runTest
  | paperEnd
  | threading
  | flush
  deriving DecidableEq, Repr

def EmptyCause.code : EmptyCause → Nat
  | .runTest => 0
  | .paperEnd => 1
  | .threading => 2
  | .flush => 3

/-- The causes of a loss in the order of the table of section 9.1. -/
inductive LossCause where
  | missingLine
  | headFault
  | paperEnd
  | cutFault
  | sorterJam
  | imageMissing
  | rowRange
  | pathClear
  deriving DecidableEq, Repr

def LossCause.code : LossCause → Nat
  | .missingLine => 0
  | .headFault => 1
  | .paperEnd => 2
  | .cutFault => 3
  | .sorterJam => 4
  | .imageMissing => 5
  | .rowRange => 6
  | .pathClear => 7

/-- The outcomes of a loss report in the order of R162. -/
inductive LossOutcome where
  | remakeCounted
  | lineFailed
  | notCounted
  deriving DecidableEq, Repr

def LossOutcome.code : LossOutcome → Nat
  | .remakeCounted => 0
  | .lineFailed => 1
  | .notCounted => 2

/-- Where a lost frame was held, in the order of R162. -/
inductive HeldIn where
  | queue
  | webMap
  | transit
  deriving DecidableEq, Repr

def HeldIn.code : HeldIn → Nat
  | .queue => 0
  | .webMap => 1
  | .transit => 2

/-- The outcomes of a strip (R60, R183). -/
inductive StripOutcome where
  | applied
  | unreadable
  | notApplied
  deriving DecidableEq, Repr

def StripOutcome.code : StripOutcome → Nat
  | .applied => 0
  | .unreadable => 1
  | .notApplied => 2

/-- The reasons of STRAY_DATA (R77, R183). -/
inductive StrayReason where
  | unknownTag
  | freeTag
  | mismatch
  | malformed
  deriving DecidableEq, Repr

def StrayReason.code : StrayReason → Nat
  | .unknownTag => 0
  | .freeTag => 1
  | .mismatch => 2
  | .malformed => 3

/-- The causes of CUTTER_FAULT (R119, R183). -/
inductive CutFaultCause where
  | bladeJam
  | markMisses
  deriving DecidableEq, Repr

def CutFaultCause.code : CutFaultCause → Nat
  | .bladeJam => 0
  | .markMisses => 1

/-! ### Flag bytes -/

/-- Flags packed from the least significant bit (R183). -/
def packFlags : List Bool → Nat
  | [] => 0
  | b :: bs => yesNo b + 2 * packFlags bs

/-- The flags byte of a submission reply: corrections clamped, discount clamped, price capped, bin emptied early. -/
def Order.submitFlags (o : Order) : Nat :=
  packFlags [o.correctionsClamped, o.discountClamped, o.priceCapped, o.binEmptiedEarly]

/-- The flags byte of ORDER_QUERY: the four above, then overflow used. -/
def Order.queryFlags (o : Order) : Nat :=
  packFlags [o.correctionsClamped, o.discountClamped, o.priceCapped, o.binEmptiedEarly, o.overflowUsed]

/-! ### Absent values (R183) -/

/-- A frame number, 0xFFFF when absent. -/
def frameField (n : Option Nat) : List Byte := le2 (n.getD 0xFFFF)

/-- An order number, 0xFFFFFFFF when absent. -/
def orderField (n : Option Nat) : List Byte := le4 (n.getD 0xFFFFFFFF)

/-- A bin, index or line, 0xFF when absent (R183). A ladder index that is 'none' (R62) is sent as 0xFF too (log 36). -/
def indexField (n : Option Nat) : List Byte := le1 (n.getD 0xFF)

/-- A magazine; the code of an absent one is open (log 6). -/
def magField (m : Option Mag) : List Byte :=
  le1 (match m with
    | some m => m.code
    | none => Config.openCode .magazine)

/-- A field of one byte with an open code when absent (log 6). -/
def openField1 (f : Config.OpenField) (n : Option Nat) : List Byte :=
  le1 (match n with
    | some n => n
    | none => Config.openCode f)

/-- A field of two bytes with an open code when absent (log 6). -/
def openField2 (f : Config.OpenField) (n : Option Nat) : List Byte :=
  le2 (match n with
    | some n => n
    | none => Config.openCode f)

/-- A field of four bytes with an open code when absent (log 6). -/
def openField4 (f : Config.OpenField) (n : Option Nat) : List Byte :=
  le4 (match n with
    | some n => n
    | none => Config.openCode f)

/-- A count sent in one byte (R179). -/
def countField (n : Nat) : List Byte := le1 n

/-- A count sent in two bytes, above 65,535 as 65,535 (R179). -/
def bigCountField (n : Nat) : List Byte := le2 (min n 65535)

end Sys2Proof.Machine
end

