-- ==== Sys2Proof/Machine/Ops.lean ====
section
/-!
DEFINITION. The shared operations: one update for each block of State, the ports, the tests an event calls for, and
the accessors of the records several blocks use.
-/
namespace Sys2Proof.Machine

/-! ### One update for each block -/

def State.setLnk (s : State) (x : Lnk) : State := { s with lnk := x }

def State.setOrt (s : State) (x : Ort) : State := { s with ort := x }

def State.setSch (s : State) (x : Sch) : State := { s with sch := x }

def State.setIfu (s : State) (x : Ifu) : State := { s with ifu := x }

def State.setExu (s : State) (x : Exu) : State := { s with exu := x }

def State.setWeb (s : State) (x : Web) : State := { s with web := x }

def State.setCut (s : State) (x : Cut) : State := { s with cut := x }

def State.setSrt (s : State) (x : Srt) : State := { s with srt := x }

def State.setPrc (s : State) (x : Prc) : State := { s with prc := x }

def State.setSet (s : State) (x : SettingsStore) : State := { s with set := x }

def State.setPorts (s : State) (x : List PortOut) : State := { s with ports := x }

def State.setDue (s : State) (x : Due) : State := { s with due := x }

def State.setFree (s : State) (x : Nat) : State := { s with free := x }

def State.setPending (s : State) (x : List Sys2Proof.Instr) : State := { s with pending := x }

/-! ### Ports and owed tests -/

/-- The part drives a port. -/
def drive (p : PortOut) (s : State) : State := s.setPorts (s.ports ++ [p])

/-- SCH owes a selection pass (R30). -/
def owePass (s : State) : State := s.setDue { s.due with pass := true }

/-- WEB owes the run test (R99, R100). -/
def oweRun (s : State) : State := s.setDue { s.due with run := true }

/-- IFU owes a look at its window (R71). -/
def oweWindow (s : State) : State := s.setDue { s.due with window := true }

/-- WEB owes the flush arming test (R104). -/
def oweFlush (s : State) : State := s.setDue { s.due with flush := true }

/-- SCH owes the changeover ask test (R40). -/
def oweAsk (s : State) : State := s.setDue { s.due with ask := true }

/-- What a frame entering or leaving the exposure queue calls for: the ask test (R40), the run test at a change of
the head (R100), the window (R71) and the flush arming test (R104). -/
def oweQueue (s : State) : State := s.setDue { s.due with ask := true, run := true, window := true, flush := true }

/-- What a frame leaving the exposure queue calls for: the same, and a selection pass (R30). -/
def oweLeave (s : State) : State := owePass (oweQueue s)

/-- What a change of a magazine record's state, width or surface calls for: a pass (R30), the run test (R99, R100)
and the window, since the head may now be offered (R36). -/
def oweMagazine (s : State) : State := oweWindow (oweRun (owePass s))

/-! ### Notices (R177) -/

/-- LNK is given a notice: not queued at priority 0; queued when fewer than 32 entries wait; otherwise discarded with
the overrun flag set (R177). -/
def sendNotice (k : NoticeKind) (body : List Byte) (s : State) : State :=
  let priority := s.set.settings.noticePriorities.getD k.index 0
  if priority = 0 then s
  else if s.lnk.notices.length < 32 then
    s.setLnk { s.lnk with
      notices := s.lnk.notices ++ [⟨k, priority, s.lnk.occurrence, body⟩]
      occurrence := s.lnk.occurrence + 1 }
  else s.setLnk { s.lnk with overrun := true }

/-! ### Magazines -/

/-- The record of a magazine. -/
def Web.mag (w : Web) : Mag → MagRecord
  | .a => w.magA
  | .b => w.magB

/-- WEB with the record of a magazine replaced. -/
def Web.setMag (w : Web) (m : Mag) (r : MagRecord) : Web :=
  match m with
  | .a => { w with magA := r }
  | .b => { w with magB := r }

/-- The part with the record of a magazine replaced. -/
def State.setMag (s : State) (m : Mag) (r : MagRecord) : State := s.setWeb (s.web.setMag m r)

/-- The strip mark of a magazine (R34). -/
def Sch.mark (x : Sch) : Mag → StripMark
  | .a => x.markA
  | .b => x.markB

/-- SCH with the strip mark of a magazine replaced. -/
def Sch.setMark (x : Sch) (m : Mag) (k : StripMark) : Sch :=
  match m with
  | .a => { x with markA := k }
  | .b => { x with markB := k }

/-- The part with the strip mark of a magazine replaced. -/
def State.setMark (s : State) (m : Mag) (k : StripMark) : State := s.setSch (s.sch.setMark m k)

/-! ### Frames -/

/-- A frame's print reference; none for a strip. -/
def Frame.ref (f : Frame) : Option PrintRef :=
  match f.job with
  | .print r => some r
  | .strip => none

/-- Whether a frame is a strip. -/
def Frame.isStrip (f : Frame) : Bool :=
  match f.job with
  | .print _ => false
  | .strip => true

/-- A print is dead when its live field is no, a strip when its dead mark is set (R27). -/
def Frame.dead (f : Frame) : Bool :=
  match f.job with
  | .print _ => !f.live
  | .strip => f.deadMark

/-- Whether a frame is a live print of the order with this number. -/
def Frame.liveOf (number : Nat) (f : Frame) : Bool :=
  match f.job with
  | .print r => f.live && r.number == number
  | .strip => false

/-- Whether a frame belongs to the order with this number. -/
def Frame.ofOrder (number : Nat) (f : Frame) : Bool :=
  match f.job with
  | .print r => r.number == number
  | .strip => false

/-! ### Orders -/

/-- The order in a slot when it carries this number; a report whose number does not match is discarded (R1). -/
def State.orderAt (s : State) (slot number : Nat) : Option Order :=
  match s.ort.slots.getD slot none with
  | some o => if o.number = number then some o else none
  | none => none

/-- A slot's content replaced. -/
def State.setOrder (s : State) (slot : Nat) (o : Option Order) : State :=
  s.setOrt { s.ort with slots := s.ort.slots.set slot o }

/-- The line of an order by its index 1..8. -/
def Order.line (o : Order) (i : Nat) : Option Line :=
  if i = 0 then none else o.lines[i - 1]?

/-- An order with one line changed. -/
def Order.modLine (o : Order) (i : Nat) (f : Line → Line) : Order :=
  if i = 0 then o else { o with lines := o.lines.modify (i - 1) f }

/-- The unscheduled count of a line, n − d − f (R5). -/
def Line.unscheduled (l : Line) : Nat := l.n - l.d - l.f

/-- An order's in-flight count summed over its lines. -/
def Order.inFlight (o : Order) : Nat := (o.lines.map Line.f).sum

/-- The slot and record of the order with this number (R7, R17). -/
def findOrder : List (Option Order) → Nat → Option (Nat × Order)
  | [], _ => none
  | none :: rest, n => (findOrder rest n).map fun p => (p.1 + 1, p.2)
  | some o :: rest, n => if o.number = n then some (0, o) else (findOrder rest n).map fun p => (p.1 + 1, p.2)

/-- The lowest-numbered free slot (R1). -/
def freeSlot : List (Option Order) → Option Nat
  | [] => none
  | none :: _ => some 0
  | some _ :: rest => (freeSlot rest).map (· + 1)

/-! ### Web map entries -/

/-- The entry of a frame, changed. -/
def updEntry (n : Nat) (f : WebEntry → WebEntry) (s : State) : State :=
  s.setWeb { s.web with map := s.web.map.map fun e => if e.frame.number = n then f e else e }

/-- The entry of a frame. -/
def findEntry (n : Nat) (s : State) : Option WebEntry := s.web.map.find? fun e => e.frame.number == n

/-- The newest entry of the web map. -/
def Web.newest (w : Web) : Option WebEntry := w.map.getLast?

/-- The loop, F_in − C − path_fixed (R96). -/
def State.loop (s : State) : Int := (s.web.fIn : Int) - s.web.c - s.set.settings.pathFixed

/-- The feeder is commanded while there is a threading magazine (R90). -/
def Web.feederCommanded (w : Web) : Bool := w.threading.isSome

end Sys2Proof.Machine
end

