-- ==== Sys2Proof/Machine/Pricing.lean ====
section
/-!
DEFINITION. PRC: unit prices (R144, R150) and the pricing formula (R151).
-/
namespace Sys2Proof.Machine

/-- The place of a price-table entry (R143). -/
def priceIndex (size : Nat) (surface : Surface) : Nat := 3 * size + surface.code

/-- A tier is enabled when its threshold is not 0 (R143). -/
def Tier.applies (t : Tier) (q : Nat) : Bool := t.threshold != 0 && decide (t.threshold ≤ q)

/-- The unit price for a grouped quantity: that of the highest-numbered enabled tier whose threshold is at most `q`
(R144). -/
def PriceEntry.unitPrice (e : PriceEntry) (q : Nat) : Nat :=
  if e.tier4.applies q then e.tier4.price
  else if e.tier3.applies q then e.tier3.price
  else if e.tier2.applies q then e.tier2.price
  else e.price1

/-- The grouped quantity: the copies ordered on the lines of this size code and surface (R150). -/
def groupQuantity (lines : List Line) (size : Nat) (surface : Surface) : Nat :=
  ((lines.filter fun l => l.size == size && l.surface == surface).map Line.n).sum

/-- Every line with its captured unit price (R150). -/
def capturePrices (prices : List PriceEntry) (lines : List Line) : List Line :=
  lines.map fun l =>
    let entry := prices.getD (priceIndex l.size l.surface) PriceEntry.unset
    { l with price := entry.unitPrice (groupQuantity lines l.size l.surface) }

/-- The greatest total PRC stores (R151). -/
def priceCap : Nat := 16777215

/-- Stages 1 to 4 of the formula for the counts `count` (R151). -/
def roundedTotal (o : Order) (count : Line → Nat) : Nat :=
  let s := (o.lines.map fun l => count l * l.price).sum
  let a := (s * (100 - o.discount)) / 100
  let b := if o.express then a + (a * o.terms.surcharge) / 100 else a
  let r := o.terms.roundingUnit
  ((b + r / 2) / r) * r

/-- Stage 5: the total (R151). -/
def priceTotal (o : Order) (count : Line → Nat) : Nat := min (roundedTotal o count) priceCap

/-- Whether stage 5 caps the price (R151). -/
def priceIsCapped (o : Order) (count : Line → Nat) : Bool := decide (priceCap < roundedTotal o count)

/-- The order with its quote: the formula with the ordered copies (R152). -/
def Order.withQuote (o : Order) : Order :=
  { o with quote := priceTotal o Line.n, priceCapped := o.priceCapped || priceIsCapped o Line.n }

/-- The order with its settled amount: the formula with the delivered copies (R153). -/
def Order.withSettlement (o : Order) : Order :=
  { o with settled := some (priceTotal o Line.d), priceCapped := o.priceCapped || priceIsCapped o Line.d }

end Sys2Proof.Machine
end

