-- ==== Sys2Proof/Machine/Orders.lean ====
section
/-!
DEFINITION. ORT's reports (R4), its completion and failure checks (R15, R16), and the bin facts it stores (R22).
-/
namespace Sys2Proof.Machine

/-- The order ends: its state, its settlement and ORDER_DONE (R15, R16, R153). `outcome` is 0 for COMPLETE, 1 for
FAILED. -/
def endOrder (slot : Nat) (o : Order) (final : OrderState) (outcome : Nat) (s : State) : State :=
  let o' := { o with state := final }.withSettlement
  sendNotice .orderDone (le4 o'.number ++ le1 outcome ++ le4 (o'.settled.getD 0)) (s.setOrder slot (some o'))

/-- Every copy of every line is delivered (R15). -/
def Order.allDelivered (o : Order) : Bool := o.lines.all fun l => l.d == l.n

/-- The state check ORT makes after every report: an ACTIVE order with every d = n is COMPLETE (R15), a FAILING order
with total f = 0 is FAILED (R16). -/
def stateCheck (slot number : Nat) (s : State) : State :=
  match s.orderAt slot number with
  | some o =>
    match o.state with
    | .active => if o.allDelivered then endOrder slot o .complete 0 s else s
    | .failing => if o.inFlight = 0 then endOrder slot o .failed 1 s else s
    | .accepted | .complete | .failed => s
  | none => s

/-- A report on a line: applied to the line of the order that the slot and number name, otherwise discarded (R1,
R4). -/
def applyReport (r : PrintRef) (f : Line → Line) (s : State) : State :=
  match s.orderAt r.slot r.number with
  | some o => s.setOrder r.slot (some (o.modLine r.line f))
  | none => s

/-- The report "frame removed from the exposure queue, copy returned": f − 1, then the state check (R4, R38). The
return is an eligibility change (R5). -/
def reportReturned (r : PrintRef) (s : State) : State :=
  owePass (stateCheck r.slot r.number (applyReport r (fun l => { l with f := l.f - 1 }) s))

/-- The report "live print dropped": d + 1 and f − 1, then the state check (R4, R15, R16). -/
def reportDelivered (r : PrintRef) (s : State) : State :=
  stateCheck r.slot r.number (applyReport r (fun l => { l with d := l.d + 1, f := l.f - 1 }) s)

/-- The report "frame created": f + 1, and an ACCEPTED order becomes ACTIVE (R4, R13). -/
def reportCreated (r : PrintRef) (s : State) : State :=
  match s.orderAt r.slot r.number with
  | some o =>
    let o' := o.modLine r.line fun l => { l with f := l.f + 1 }
    s.setOrder r.slot (some { o' with state := if o.state = .accepted then .active else o.state })
  | none => s

/-- Change the order with this number, whatever its slot. -/
def modOrder (number : Nat) (f : Order → Order) (s : State) : State :=
  match findOrder s.ort.slots number with
  | some (slot, o) => s.setOrder slot (some (f o))
  | none => s

end Sys2Proof.Machine
end

