-- ==== Sys2Proof/Machine/Queue.lean ====
section
/-!
DEFINITION. The exposure queue (2.1, 2.6): its order, placing and removing frames, the head's offer; and the line
store's part in a frame's leaving (R73, R74).
-/
namespace Sys2Proof.Machine

/-! ### Giving up a frame's supply -/

/-- A slot's content after the supply of frame `n` is given up. -/
def LineSlot.release (n : Nat) (x : LineSlot) : LineSlot :=
  match x with
  | .empty => .empty
  | .awaited f _ _ _ _ => if f = n then .empty else x
  | .filled f _ _ _ _ => if f = n then .empty else x

/-- A tag after the supply of frame `n` is given up: an OUTSTANDING tag of it drops its slot for the discard mark and
keeps its timer; an EXPIRED one stays in quarantine (R73, R74). -/
def FetchTag.release (n : Nat) (x : FetchTag) : FetchTag :=
  match x with
  | .outstanding info _ timer => if info.frame = n then .outstanding info none timer else x
  | .free => x
  | .expired _ _ => x

/-- Every slot and OUTSTANDING tag of frame `n` is given up (R73, R74). -/
def releaseFrame (n : Nat) (s : State) : State :=
  s.setIfu { s.ifu with
    slots := s.ifu.slots.map (LineSlot.release n)
    tags := s.ifu.tags.map (FetchTag.release n) }

/-- IFU abandons the supply of frame `n` when it is the current frame, which then ends being it; otherwise nothing
changes (R73; that it ends being current: R69, log 10). -/
def abandonSupply (n : Nat) (s : State) : State :=
  match s.ifu.current with
  | some c =>
    if c.frame = n then
      let s := releaseFrame n s
      oweWindow (s.setIfu { s.ifu with current := none })
    else s
  | none => s

/-- The committed head leaves without a run: IFU clears its supply (R74). -/
def clearHeadSupply (n : Nat) (s : State) : State :=
  let s := releaseFrame n s
  s.setIfu { s.ifu with primed := false }

/-! ### The order of the queue (R25) -/

/-- The lexicographic order of keys. -/
def lexLt : List Nat → List Nat → Bool
  | a :: as, b :: bs => decide (a < b) || (a == b && lexLt as bs)
  | _, _ => false

/-- The keys of a print frame: its magazine group, priority descending, intake sequence, line index, copy number. -/
def frameKey (s : State) (f : Frame) : List Nat :=
  match f.ref with
  | some r =>
    let o := s.orderAt r.slot r.number
    [if s.web.active = some f.mag then 0 else 1, 15 - (o.map Order.priority).getD 0, (o.map Order.seq).getD 0,
      r.line, r.copy]
  | none => []

/-- How many records stand ahead of every placed frame: the committed head and the strip behind it. -/
def fixedCount (committed : Bool) (q : List Frame) : Nat :=
  if committed then 1 + ((q.drop 1).takeWhile Frame.isStrip).length else (q.takeWhile Frame.isStrip).length

/-- A print frame put at the position R25 gives it: behind every frame it does not precede. -/
def placeFrame (s : State) (f : Frame) (q : List Frame) : List Frame :=
  let n := fixedCount s.sch.committed q
  let rest := q.drop n
  let behind := fun x => !lexLt (frameKey s f) (frameKey s x)
  q.take n ++ rest.takeWhile behind ++ f :: rest.dropWhile behind

/-- A strip stands directly behind the committed head, or at position 1 (R25, R35). -/
def placeStrip (committed : Bool) (f : Frame) (q : List Frame) : List Frame :=
  if committed then q.take 1 ++ f :: q.drop 1 else f :: q

/-- The queue holds a frame of this magazine. -/
def Sch.holds (x : Sch) (m : Mag) : Bool := x.queue.any fun f => f.mag == m

/-- The queue has room (R24). -/
def Sch.hasRoom (x : Sch) : Bool := decide (x.queue.length < 16)

/-- SCH offers the head frame to IFU (R36). -/
def offerable (s : State) (f : Frame) : Bool :=
  s.web.active == some f.mag &&
    match (s.web.mag f.mag).state with
    | .ready => true
    | .calNeeded => f.isStrip || s.set.settings.calibrationRequired == 0
    | .absent => false
    | .empty => false

/-- The committed head. -/
def committedHead (s : State) : Option Frame := if s.sch.committed then s.sch.queue.head? else none

/-! ### Removing and re-placing (R37, R38) -/

/-- Report each removed print frame to its order with f − 1 (R38). The spec names no order of the reports; the model
reports in queue order, from the head (log 35). -/
def reportRemovals : List Frame → State → State
  | [], s => s
  | f :: fs, s =>
    match f.ref with
    | some r => reportRemovals fs (reportReturned r s)
    | none => reportRemovals fs s

/-- SCH removes every frame that satisfies `p`. When the committed head is among them, IFU clears its supply (R74).
`report` says whether the removals are reported to ORT (R38). -/
def removeFrames (p : Frame → Bool) (report : Bool) (s : State) : State :=
  let removed := s.sch.queue.filter p
  if removed.isEmpty then s
  else
    let head := committedHead s
    let headGone := (head.map p).getD false
    let s := s.setSch { s.sch with
      queue := s.sch.queue.filter fun f => !p f
      committed := s.sch.committed && !headGone }
    let s := match head with
      | some h => if headGone then clearHeadSupply h.number s else s
      | none => s
    oweLeave (if report then reportRemovals removed s else s)

/-- SCH re-places the uncommitted frames of an order under its new priority, keeping their order among themselves
(R37). -/
def replaceFrames (number : Nat) (s : State) : State :=
  let head := if s.sch.committed then s.sch.queue.take 1 else []
  let rest := if s.sch.committed then s.sch.queue.drop 1 else s.sch.queue
  let moved := rest.filter (Frame.ofOrder number)
  let kept := rest.filter fun f => !f.ofOrder number
  oweQueue (s.setSch { s.sch with queue := moved.foldl (fun q f => placeFrame s f q) (head ++ kept) })

/-- A magazine becomes unusable: its frames leave the queue, its strip mark is NONE, and a changeover not yet asked
toward it is cleared (R38, R34). -/
def magazineUnusable (m : Mag) (s : State) : State :=
  let s := removeFrames (fun f => f.mag == m) true s
  let s := s.setMark m .none
  let s := if s.sch.changeover = .pending m then s.setSch { s.sch with changeover := .clear } else s
  owePass s

end Sys2Proof.Machine
end

