-- ==== Sys2Proof/Machine/Loss.lean ====
section
/-!
DEFINITION. The frame-loss accounting (chapter 9) and the failing of a line (R14).
-/
namespace Sys2Proof.Machine

/-- A loss report (R158). `line` is the missing print line of MISSING_LINE. -/
structure LossReport where
  frame : Frame
  ref   : PrintRef
  cause : LossCause
  held  : HeldIn
  line  : Option Nat
  deriving DecidableEq, Repr

/-- The line failure an image failure carries (R160). -/
def LossCause.imageFailure : LossCause → Option FailCause
  | .imageMissing => some .imageMissing
  | .rowRange => some .rowRange
  | .missingLine | .headFault | .paperEnd | .cutFault | .sorterJam | .pathClear => none

/-- What ORT decides of a loss: the outcome, and the cause the line fails with (R159, R160, R168). The first row that
applies gives the outcome. -/
def decideLoss (cause : LossCause) (limit : Nat) (o : Order) (l : Line) : LossOutcome × Option FailCause :=
  if cause = .pathClear then (.notCounted, none)
  else if l.failed.isSome then (.notCounted, none)
  else
    match cause.imageFailure with
    | some c => (.lineFailed, some c)
    | none =>
      if limit ≤ l.r then (.lineFailed, some .remakeLimit)
      else if o.state = .failing then (.notCounted, none)
      else (.remakeCounted, none)

/-- The line after the report, before its failed field is set: f − 1, and r + 1 for a counted remake (R159). -/
def Line.lose (l : Line) (outcome : LossOutcome) : Line :=
  { l with f := l.f - 1, r := if outcome = .remakeCounted then l.r + 1 else l.r }

/-- The body of FRAME_LOST (R162, R183); `l` is the line after the report. The limited flag of a frame whose run had not
started is absent, so its bit is a free value; so is the two-byte print line k where the cause is not MISSING_LINE, which
R183's one-byte code 0xFF of an absent line is not taken to cover (log 6). -/
def frameLostBody (rep : LossReport) (outcome : LossOutcome) (l : Line) : List Byte :=
  let codes := rep.frame.exposure.map Exposure.codes
  let dwells := rep.frame.exposure.map Exposure.dwells
  let limited := match rep.frame.exposure with
    | some e => e.limited
    | none => Config.openCode .limited % 2 == 1
  le2 rep.frame.number ++ le4 rep.ref.number ++ le1 rep.ref.line ++ le1 rep.ref.copy ++
    le1 rep.cause.code ++ le1 outcome.code ++
    le1 l.d ++ le1 l.f ++ le1 l.r ++ le1 l.unscheduled ++
    le1 rep.held.code ++ openField2 .printLine rep.line ++
    openField2 .code (codes.map RGB.r) ++ openField2 .code (codes.map RGB.g) ++
    openField2 .code (codes.map RGB.b) ++
    openField4 .dwell (dwells.map RGB.r) ++ openField4 .dwell (dwells.map RGB.g) ++
    openField4 .dwell (dwells.map RGB.b) ++
    openField1 .speedClass (rep.frame.exposure.map fun e => e.speed.code) ++
    le1 (packFlags [limited, rep.frame.unregistered])

/-- A line fails: LINE_FAILED, the removal of its frames from the queue except the committed head, and the order's
state (R14). -/
def failLine (r : PrintRef) (cause : FailCause) (s : State) : State :=
  let s := applyReport r (fun l => { l with failed := some cause }) s
  let s := sendNotice .lineFailed (le4 r.number ++ le1 r.line ++ le1 cause.code) s
  let spared := (committedHead s).map Frame.number
  let s := removeFrames (fun f =>
    (match f.ref with
      | some q => q.slot == r.slot && q.number == r.number && q.line == r.line
      | none => false) && some f.number != spared) true s
  let s := match s.orderAt r.slot r.number with
    | some o => if o.state = .active then s.setOrder r.slot (some { o with state := .failing }) else s
    | none => s
  owePass (stateCheck r.slot r.number s)

/-- ORT takes a loss report: outcome, counters, FRAME_LOST, then the line's failure if it fails, and the state check
(R159, R160, R162, R14 to R16). A report whose order is no longer in its slot is discarded (R1). The copy returns to
unscheduled, an eligibility change (R5, R161). R162 has FRAME_LOST before LINE_FAILED alone; that it also precedes the
ORDER_DONE of a FAILING order whose last copy in flight a NOT_COUNTED loss takes is the model's choice (log 49). -/
def accountLoss (rep : LossReport) (s : State) : State :=
  match s.orderAt rep.ref.slot rep.ref.number with
  | some o =>
    match o.line rep.ref.line with
    | some l =>
      let (outcome, failure) := decideLoss rep.cause s.set.settings.remakeLimit o l
      let l' := l.lose outcome
      let s := s.setOrder rep.ref.slot (some (o.modLine rep.ref.line fun _ => l'))
      let s := sendNotice .frameLost (frameLostBody rep outcome l') s
      match failure with
      | some cause => failLine rep.ref cause s
      | none => owePass (stateCheck rep.ref.slot rep.ref.number s)
    | none => s
  | none => s

/-- A live print on the web map is lost: WEB sets live to no and reports (R158). A dead frame and a strip are never
the subject of a report. -/
def loseOnWeb (n : Nat) (cause : LossCause) (line : Option Nat) (s : State) : State :=
  match findEntry n s with
  | some e =>
    match e.frame.ref with
    | some r =>
      if e.frame.live then
        let s := updEntry n (fun e => { e with frame := { e.frame with live := false } }) s
        accountLoss ⟨e.frame, r, cause, .webMap, line⟩ s
      else s
    | none => s
  | none => s

/-- A spoil reaches an entry only while it is EXPOSING (R98); then the loss of a live print is reported (R158). -/
def spoilOnWeb (n : Nat) (cause : LossCause) (line : Option Nat) (s : State) : State :=
  match findEntry n s with
  | some e =>
    if e.webState = .exposing then
      loseOnWeb n cause line (updEntry n (fun e => { e with webState := .spoiled }) s)
    else s
  | none => s

end Sys2Proof.Machine
end

