-- ==== Sys2Proof/Machine/Exposure.lean ====
section
/-!
DEFINITION. EXU: the exposure computation (3.4), the calibration ladder and strip outcomes (3.3, 3.7), the warm-up.
-/
namespace Sys2Proof.Machine

/-! ### The computation (R49 to R52) -/

/-- The inputs of a frame's exposure (R49). -/
structure ExposureInput where
  base    : RGB Nat
  calib   : RGB Int
  size    : Int
  density : Int
  colour  : RGB Int
  dStep   : Nat
  cStep   : Nat
  period  : Nat
  deriving DecidableEq, Repr

/-- What EXU finds: what it writes into the record, the line period in use, and which channels were limited (R53). -/
structure ExposureResult where
  exposure     : Exposure
  period       : Nat
  codeLimited  : RGB Bool
  dwellLimited : RGB Bool
  deriving DecidableEq, Repr

/-- E_c = B_c + K_c + S + D × σ_d + X_c × σ_c (R50). -/
def exposureSum (base : Nat) (calib size density colour : Int) (dStep cStep : Nat) : Int :=
  base + calib + size + density * dStep + colour * cStep

/-- The clamp of an exposure sum to 0..4095 (R50). -/
def clampCode (e : Int) : Nat := if e < 0 then 0 else if 4095 < e then 4095 else e.toNat

/-- The sum lies outside 0..4095, so the channel is code-limited (R50). -/
def codeClamped (e : Int) : Bool := decide (e < 0) || decide (4095 < e)

/-- dwell = ((256 + f) × 2^q) div 16 with q = E div 256 and f = E mod 256 (R51). -/
def dwellOf (e : Nat) : Nat := ((256 + e % 256) * 2 ^ (e / 256)) / 16

/-- Codes, dwells, speed class and limits from the inputs (R50 to R52). -/
def computeExposure (i : ExposureInput) : ExposureResult :=
  let sum := fun (base : Nat) (calib colour : Int) =>
    exposureSum base calib i.size i.density colour i.dStep i.cStep
  let sums : RGB Int :=
    ⟨sum i.base.r i.calib.r i.colour.r, sum i.base.g i.calib.g i.colour.g, sum i.base.b i.calib.b i.colour.b⟩
  let codes := sums.map clampCode
  let raw := codes.map dwellOf
  let slow := !raw.all fun d => decide (d ≤ i.period)
  let limit := 2 * i.period
  let codeLimited := sums.map codeClamped
  let dwellLimited := raw.map fun d => decide (limit < d)
  { exposure := {
      codes := codes
      dwells := raw.map fun d => min d limit
      speed := if slow then .slow else .normal
      limited := !codeLimited.all (!·) || !dwellLimited.all (!·) }
    period := if slow then limit else i.period
    codeLimited := codeLimited
    dwellLimited := dwellLimited }

/-- The line record a print frame names. -/
def lineOf (s : State) (r : PrintRef) : Option Line := (s.orderAt r.slot r.number).bind fun o => o.line r.line

/-- The inputs of a frame as they stand when its exposure start is taken (R49). -/
def exposureInput (s : State) (f : Frame) : ExposureInput :=
  let m := s.web.mag f.mag
  let line := f.ref.bind (lineOf s)
  { base := s.exu.profiles.getD m.profile ⟨0, 0, 0⟩
    calib := m.offsets
    size := match f.ref with
      | some r => (s.exu.sizes.getD r.size SizeEntry.unset).offset
      | none => 0
    density := (line.map Line.density).getD 0
    colour := ⟨(line.map Line.cyan).getD 0, (line.map Line.magenta).getD 0, (line.map Line.yellow).getD 0⟩
    dStep := s.set.settings.densityStep
    cStep := s.set.settings.colourStep
    period := s.set.settings.linePeriod }

/-- The body of EXPOSURE_LIMITED (R53, R183). -/
def exposureLimitedBody (f : Frame) (x : ExposureResult) : List Byte :=
  le2 f.number ++ orderField (f.ref.map PrintRef.number) ++ indexField (f.ref.map PrintRef.line) ++
    le2 x.exposure.codes.r ++ le2 x.exposure.codes.g ++ le2 x.exposure.codes.b ++
    le1 (packFlags (x.codeLimited.toList ++ x.dwellLimited.toList))

/-! ### The calibration ladder (R47) and strip outcomes (R60 to R62) -/

/-- The highest index whose threshold the reading reaches, none below T_0 (R47). -/
def ladderIndex (thresholds : List Nat) (reading : Nat) : Option Nat :=
  ((List.range thresholds.length).filter fun i => decide (thresholds.getD i 0 ≤ reading)).getLast?

/-- The clamp of a calibration offset to −512..+511 (R61). -/
def clampOffset (k : Int) : Int := if k < -512 then -512 else if 511 < k then 511 else k

/-- The body of CAL_RESULT (R62, R183). -/
def calResultBody (m : Mag) (frame : Nat) (outcome : StripOutcome) (readings : Option (RGB Nat))
    (indices : RGB (Option Nat)) (offsets : RGB Int) (clamped : RGB Bool) : List Byte :=
  le1 m.code ++ le2 frame ++ le1 outcome.code ++
    openField2 .reading (readings.map RGB.r) ++ openField2 .reading (readings.map RGB.g) ++
    openField2 .reading (readings.map RGB.b) ++
    indexField indices.r ++ indexField indices.g ++ indexField indices.b ++
    le2s offsets.r ++ le2s offsets.g ++ le2s offsets.b ++ le1 (packFlags clamped.toList)

/-- SCH returns a strip mark from CREATED to NONE when it carries the strip's frame number (R62, R34). -/
def clearMark (m : Mag) (frame : Nat) (s : State) : State :=
  if s.sch.mark m = .created frame then s.setMark m .none else s

/-- A strip left the transit queue without a reading: its outcome is UNREADABLE (R62, R124). -/
def stripUnread (m : Mag) (frame : Nat) (s : State) : State :=
  clearMark m frame (sendNotice .calResult
    (calResultBody m frame .unreadable none ⟨none, none, none⟩ (s.web.mag m).offsets ⟨false, false, false⟩) s)

/-- The step value of a ladder index. -/
def ladderStep (steps : List Int) (i : Option Nat) : Int :=
  match i with
  | some i => steps.getD i 0
  | none => 0

/-- EXU judges a strip's reading and reports the outcome (R60, R61, R62). It acts on the magazine's record as it stands at the
reading. Where the roll was unloaded or run out and another loaded between the strip's exposure and its reading, the spec does
not say whether the reading is the new roll's: the model applies it, and the new roll becomes READY (log 50). -/
def stripRead (m : Mag) (frame : Nat) (reading : RGB Nat) (s : State) : State :=
  let rec0 := s.web.mag m
  let indices := reading.map (ladderIndex s.exu.ladder.thresholds)
  if rec0.state = .calNeeded ∨ rec0.state = .ready then
    if indices.all Option.isSome then
      let moved := RGB.zipWith (fun k i => k + ladderStep s.exu.ladder.steps i) rec0.offsets indices
      let offsets := moved.map clampOffset
      let clamped := moved.map fun k => clampOffset k != k
      let s := s.setMag m { rec0 with offsets := offsets, indices := indices, state := .ready }
      let s := if rec0.state = .calNeeded then oweMagazine s else s
      clearMark m frame (sendNotice .calResult
        (calResultBody m frame .applied (some reading) indices offsets clamped) s)
    else
      clearMark m frame (sendNotice .calResult
        (calResultBody m frame .unreadable (some reading) indices rec0.offsets ⟨false, false, false⟩) s)
  else
    clearMark m frame (sendNotice .calResult
      (calResultBody m frame .notApplied (some reading) indices rec0.offsets ⟨false, false, false⟩) s)

/-! ### The head (R54) -/

def setHead (h : HeadState) (s : State) : State := s.setExu { s.exu with head := h }

/-- The head begins its warm-up (R54, R57). -/
def warmUp (s : State) : State := drive .headWarmUp (setHead .warming s)

/-- A run completes or ends early: an EXPOSING head is READY, any other stays (R55, R58). -/
def headRunOver (s : State) : State := if s.exu.head = .exposing then setHead .ready s else s

/-- A waking part becomes ACTIVE and AWAKE is sent (R54, R56, R189). -/
def awake (s : State) : State :=
  if s.lnk.power = .waking then sendNotice .awake [] (s.setLnk { s.lnk with power := .active }) else s

end Sys2Proof.Machine
end

