-- ==== Sys2Proof/Machine/Web.lean ====
section
/-!
DEFINITION. WEB: paper accounting (5.2), threading and changeover (5.3), flushes (5.7).
-/
namespace Sys2Proof.Machine

/-! ### Paper accounting (R88, R89) -/

/-- The low-mark test of R88: below the low mark and not yet reported, MAG_LOW is sent. -/
def lowMarkTest (m : Mag) (s : State) : State :=
  let r := s.web.mag m
  if r.remaining < s.set.settings.lowMark ∧ r.lowReported = false then
    sendNotice .magLow (le1 m.code ++ le4 r.remaining) (s.setMag m { r with lowReported := true })
  else s

/-- A change of a magazine's remaining length, with the low-mark test (R88). -/
def setRemaining (m : Mag) (n : Nat) (s : State) : State :=
  lowMarkTest m (s.setMag m { s.web.mag m with remaining := n })

/-- One exposure-feed step: F_in rises by 1 and the active magazine's remaining falls by 1 (R88, R102, R105). At a
length of 0, which a run in FAULT can meet (log 39), it stays 0, with the low-mark test (log 54). -/
def feedOne (s : State) : State :=
  let s := s.setWeb { s.web with fIn := s.web.fIn + 1 }
  match s.web.active with
  | some m => setRemaining m ((s.web.mag m).remaining - 1) s
  | none => s

/-- A magazine becomes EMPTY: MAG_EMPTY, and SCH gives up its frames (R89, R38). Nothing for one that is EMPTY. The removals'
f − 1 reports can end a FAILING order (R16); no rule orders its ORDER_DONE and MAG_EMPTY, and the model sends MAG_EMPTY first
(the model's choice, log 57). -/
def emptyMagazine (m : Mag) (cause : EmptyCause) (before : Nat) (s : State) : State :=
  let r := s.web.mag m
  if r.state = .empty then s
  else
    let s := s.setMag m { r with state := .empty }
    let s := sendNotice .magEmpty (le1 m.code ++ le1 cause.code ++ le4 before) s
    oweMagazine (magazineUnusable m s)

/-! ### Web states -/

/-- A cutter in FEEDING or HOLD goes to IDLE (R112). -/
def CutterState.stopFeed : CutterState → CutterState
  | .feeding => .idle
  | .hold => .idle
  | .idle => .idle
  | .cutting => .cutting
  | .fault => .fault

/-- The cutter feed stops (R112). -/
def stopCutterFeed (s : State) : State := s.setCut { s.cut with state := s.cut.state.stopFeed }

/-- The flush in progress stops where it is (R105). -/
def stopFlush (s : State) : State := s.setWeb { s.web with flush := none }

/-- The flush timer is disarmed (R104). -/
def disarmFlush (s : State) : State := s.setWeb { s.web with flushTimer := none }

/-- Cuts, runs and flushes may take place (R112, R105). -/
def WebState.feeds : WebState → Bool
  | .ready => true
  | .changeover => true
  | .unthreaded => false
  | .threading => false
  | .fault => false
  | .clearing => false

/-- The web takes a state. Leaving READY disarms the flush timer (R104); leaving READY and CHANGEOVER stops a flush
(R105) and the cutter feed (R112); becoming READY calls for the run test (R99) and the arming test (R104). -/
def setWebState (w : WebState) (s : State) : State :=
  let s := s.setWeb { s.web with state := w }
  let s := if w = .ready then oweFlush (oweRun s) else disarmFlush s
  if w.feeds then s else stopCutterFeed (stopFlush s)

/-! ### Flushes (R104, R105) -/

/-- The flush end of an entry: s + Lf + G + W (R104). -/
def flushEnd (s : State) (e : WebEntry) : Nat := e.start + e.frame.lf + e.frame.gap + s.set.settings.markWindow

/-- The newest entry's flush end lies beyond F_in − path_fixed (R104). -/
def flushNeeded (s : State) : Bool :=
  match s.web.newest with
  | some e => decide (s.web.fIn < flushEnd s e + s.set.settings.pathFixed)
  | none => false

/-- The active magazine's remaining length. -/
def activeRemaining (s : State) : Nat :=
  match s.web.active with
  | some m => (s.web.mag m).remaining
  | none => 0

/-- A flush begins; its target is the newest entry's flush end plus path_fixed. With no paper left it ends at once
(R105). -/
def beginFlush (s : State) : State :=
  match s.web.newest with
  | some e =>
    let target := flushEnd s e + s.set.settings.pathFixed
    if s.web.fIn < target ∧ 0 < activeRemaining s then s.setWeb { s.web with flush := some target } else s
  | none => s

/-- WEB drives the feed for a flush while F_in is below the target, the loop below loop_max and remaining above 0
(R105). -/
def flushDriven (s : State) : Bool :=
  match s.web.flush with
  | some target =>
    decide (s.web.fIn < target) && decide (s.loop < s.set.settings.loopMax) && decide (0 < activeRemaining s)
  | none => false

/-- The target the exposure feed is driven toward for a flush; none while the flush pauses, without one, and during a
run (R105). -/
def flushDrive (s : State) : Option Nat := if s.web.run = none ∧ flushDriven s then s.web.flush else none

/-- At the end of an event the exposure feed is commanded toward the flush target, at the NORMAL rate, or stopped, where
that is not what it did for a flush before the event: a flush begins, pauses at loop_max, resumes and ends so (R105). A run
that has started drives the feed by its own command (R101). The line period P of the NORMAL rate is read at each command
toward the target; a write of P while the feed is driven is not passed on to it (the model's choice, log 45). -/
def driveFlush (before : Option Nat) (s : State) : State :=
  if flushDrive s = before then s
  else
    match flushDrive s with
    | some target => drive (.flushFeed target s.set.settings.linePeriod) s
    | none => if s.web.run.isSome then s else drive .exposureStop s

/-- The arming test of R104, with the disarming by the newest entry's flush end. A test that finds every condition while the
timer already runs leaves it running from the delay it was armed with: the rule does not say whether it is armed again, and
this is the model's choice (log 55). -/
def flushArmTest (s : State) : State :=
  if !flushNeeded s then disarmFlush s
  else if s.web.state = .ready ∧ s.web.run = none ∧ s.web.flush = none ∧ s.web.flushTimer = none ∧
      (s.web.active.map s.sch.holds).getD false = false then
    s.setWeb { s.web with flushTimer := some s.set.settings.flushDelay }
  else s

/-! ### Threading (R90, R92, R93) -/

/-- The feeder is commanded: F_in = path_fixed and C = 0; UNTHREADED and READY become THREADING (R90). No run, flush
or cut takes place while the threading lasts. -/
def startThreading (m : Mag) (s : State) : State :=
  let s := stopCutterFeed (disarmFlush (stopFlush s))
  let s := s.setWeb { s.web with threading := some m, fIn := s.set.settings.pathFixed, c := 0 }
  let s := drive (.threadFeeder m) s
  match s.web.state with
  | .unthreaded => setWebState .threading s
  | .ready => setWebState .threading s
  | .threading => s
  | .changeover => s
  | .fault => s
  | .clearing => s

/-- A threading falls due for a magazine no ask is held for (R90). -/
def threadOrEmpty (m : Mag) (s : State) : State :=
  let left := (s.web.mag m).remaining
  if s.set.settings.pathFixed ≤ left then startThreading m s else emptyMagazine m .threading left s

/-- A magazine can be the source of a threading: neither EMPTY nor ABSENT (R95). -/
def MagState.loaded : MagState → Bool
  | .absent => false
  | .empty => false
  | .calNeeded => true
  | .ready => true

/-- WEB drops the held ask and SCH's changeover-pending is CLEAR (R92, R40). -/
def dropAsk (s : State) : State :=
  let s := s.setWeb { s.web with ask := none }
  let s := owePass (s.setSch { s.sch with changeover := .clear })
  if s.web.feederCommanded then s
  else
    match s.web.state with
    | .changeover => setWebState .ready s
    | .clearing =>
      match s.web.active with
      | some m => if (s.web.mag m).state.loaded then threadOrEmpty m s else s
      | none => setWebState .unthreaded s
    | .unthreaded => s
    | .threading => s
    | .ready => s
    | .fault => s

/-- A magazine becomes EMPTY; when it is the target of a held ask the ask is dropped (R89, R92). -/
def emptyOrDrop (m : Mag) (cause : EmptyCause) (before : Nat) (s : State) : State :=
  let s := emptyMagazine m cause before s
  if s.web.ask = some m then dropAsk s else s

/-- WEB commands a threading, after the test of remaining against path_fixed (R90). -/
def commandThreading (m : Mag) (s : State) : State :=
  let left := (s.web.mag m).remaining
  if s.set.settings.pathFixed ≤ left then startThreading m s else emptyOrDrop m .threading left s

/-- The changeover's first step: with the web map empty the target is threaded (R93). -/
def changeoverThread (s : State) : State :=
  match s.web.ask with
  | some t => if s.web.map.isEmpty ∧ s.web.feederCommanded = false then commandThreading t s else s
  | none => s

/-- The web enters CHANGEOVER: the flush timer is disarmed, a needed flush starts at once unless a run is in
progress, and with the map empty the target is threaded (R93). -/
def enterChangeover (s : State) : State :=
  let s := setWebState .changeover s
  let s := if s.web.run = none ∧ flushNeeded s then beginFlush s else s
  changeoverThread s

/-- WEB takes SCH's ask to change over (R92). -/
def takeAsk (t : Mag) (s : State) : State :=
  let s := s.setWeb { s.web with ask := some t }
  match s.web.state with
  | .ready => enterChangeover s
  | .clearing => if s.web.feederCommanded then s else commandThreading t s
  | .unthreaded => s
  | .threading => s
  | .changeover => s
  | .fault => s

/-! ### Runs ended early (R103) -/

/-- A run in progress is ended early: the feed stops, the head returns, and IFU abandons the frame's supply (R103,
R73). -/
def endRunEarly (s : State) : State :=
  if s.web.run.isSome then
    let s := drive .exposureStop (headRunOver (s.setWeb { s.web with run := none }))
    match s.web.newest with
    | some e => abandonSupply e.frame.number s
    | none => s
  else s

end Sys2Proof.Machine
end

