-- ==== Sys2Proof/Machine/Cutter.lean ====
section
/-!
DEFINITION. CUT: choosing and making cuts (6.2), registration on the cut marks (6.3), faults (6.4) and clearing (6.5).
-/
namespace Sys2Proof.Machine

/-! ### Gap records (R108, R114) -/

/-- The gap records in search order: the carried record, then those of the entries, oldest first (R114). -/
def gapsInOrder (s : State) : List GapRecord :=
  (match s.cut.carried with
    | some x => [x.gap]
    | none => []) ++ s.cut.gaps

/-- The gap being searched: the oldest record still OPEN (R114). -/
def openGap (s : State) : Option GapRecord := (gapsInOrder s).find? fun g => g.decision == .undecided

/-- The carried record is the gap being searched: it is still OPEN (R114). -/
def carriedOpen (s : State) : Bool :=
  match s.cut.carried with
  | some x => x.gap.decision == .undecided
  | none => false

/-- The first OPEN record of a list, changed. -/
def updFirstOpen (f : GapRecord → GapRecord) : List GapRecord → List GapRecord
  | [] => []
  | g :: gs => if g.decision == .undecided then f g :: gs else g :: updFirstOpen f gs

/-- The gap record being searched, changed: the carried one while it is OPEN, else the oldest OPEN one of an entry (R114).
Frame numbers do not tell them apart, since R26 gives the number of a carried record's frame again once that frame is
gone. -/
def updGap (f : GapRecord → GapRecord) (s : State) : State :=
  if carriedOpen s then s.setCut { s.cut with carried := s.cut.carried.map fun x => { x with gap := f x.gap } }
  else s.setCut { s.cut with gaps := updFirstOpen f s.cut.gaps }

/-- The search of the oldest OPEN gap begins: W is read, once (R114). -/
def beginSearch (s : State) : State :=
  match openGap s with
  | some g =>
    if g.window.isNone then updGap (fun g => { g with window := some s.set.settings.markWindow }) s else s
  | none => s

/-- The carried record is discarded (R108). When it was the gap being searched, that gap is never decided, though R118
has the decision of a gap whose cuts came first made later with its full effect; the search moves on to the next OPEN
record with a mark run of 0 (R114; both the model's choice, log 31). -/
def dropCarried (s : State) : State :=
  beginSearch (s.setCut { s.cut with carried := none, markRun := if carriedOpen s then 0 else s.cut.markRun })

/-! ### Cuts and their targets (R110, R111, R113) -/

/-- The gap record of a web map entry. -/
def gapRecord (s : State) (frame : Nat) : Option GapRecord := s.cut.gaps.find? fun g => g.frame == frame

/-- The gap record a cut uses: a trailing cut its frame's own, a leading cut the carried one (R111). -/
def cutRecord (s : State) (kind : CutKind) (frame : Nat) : Option GapRecord :=
  match kind with
  | .trailing => gapRecord s frame
  | .leading => s.cut.carried.map Carried.gap

/-- The target of a cut: nominal plus the gap offset of its record, or the registration offset while there is no
record or it is OPEN (R111). -/
def cutTarget (s : State) (kind : CutKind) (frame nominal : Nat) : Int :=
  match (cutRecord s kind frame).bind GapRecord.offset with
  | some o => nominal + o
  | none => nominal + s.cut.offset

/-- Set a frame's unregistered flag through WEB (R111). -/
def flagUnregistered (frame : Nat) (s : State) : State :=
  updEntry frame (fun e => { e with frame := { e.frame with unregistered := true } }) s

/-- A cut is registered when its record is FOUND and the blade stands at the target (R111). -/
def registered (s : State) (x : NextCut) : Bool :=
  match cutRecord s x.kind x.frame with
  | some g => g.decision == .found && (s.web.c : Int) == x.target
  | none => false

/-- The blade is commanded; a cut that is not registered flags its frame (R113, R111). -/
def commandCut (s : State) : State :=
  match s.cut.nextCut with
  | some x =>
    let s' := drive .bladeCut (s.setCut { s.cut with state := .cutting })
    if registered s x then s' else flagUnregistered x.frame s'
  | none => s

/-- A cut falls due: a leading cut is commanded; a trailing cut is commanded with room in transit, and held without
(R113). -/
def cutDue (s : State) : State :=
  match s.cut.nextCut with
  | some x =>
    match x.kind with
    | .leading => commandCut s
    | .trailing =>
      if s.srt.transit.length < 4 then commandCut s else s.setCut { s.cut with state := .hold }
  | none => s

/-- A cutter in FEEDING whose target lies at or behind C: the cut falls due where the blade stands (R111). -/
def checkDue (s : State) : State :=
  match s.cut.nextCut with
  | some x => if s.cut.state = .feeding ∧ x.target ≤ s.web.c then cutDue s else s
  | none => s

/-- The next cut is planned for an entry; with the web READY or CHANGEOVER the cutter is FEEDING, otherwise IDLE
(R110, R113). -/
def planCut (kind : CutKind) (e : WebEntry) (s : State) : State :=
  let nominal := match kind with
    | .leading => e.start
    | .trailing => e.start + e.frame.lf
  let x : NextCut := ⟨kind, e.frame.number, nominal, cutTarget s kind e.frame.number nominal⟩
  checkDue (s.setCut { s.cut with
    nextCut := some x
    state := if s.web.state.feeds then .feeding else .idle })

/-- The leading cut is omitted: the frame is flagged, the carried record discarded, the leading edge counts as made
(R110). -/
def omitLeading (e : WebEntry) (s : State) : State :=
  flagUnregistered e.frame.number (dropCarried (s.setCut { s.cut with leadingMade := true }))

/-- CUT chooses its next cut (R110). -/
def chooseCut (s : State) : State :=
  match s.web.map with
  | [] => s.setCut { s.cut with nextCut := none, state := .idle }
  | e :: _ =>
    if s.cut.leadingMade then planCut .trailing e s
    else
      match s.cut.carried with
      | some x => if x.gap.gapStart = e.start then planCut .trailing e (omitLeading e s) else planCut .leading e s
      | none => planCut .leading e s

/-- SRT reports a free place: a cutter in HOLD commands its cut while the web is READY or CHANGEOVER (R113, R123). In
any other state the report changes nothing. -/
def freePlace (s : State) : State :=
  if s.cut.state = .hold ∧ s.web.state.feeds then commandCut s else s

/-! ### Deciding gaps (R111, R114) -/

/-- The mark status for the gap being searched: its entry's, from WEB, or for the carried record as the entry left the map
(R108, R114; log 22). -/
def gapMark (s : State) (g : GapRecord) : MarkStatus :=
  match (if carriedOpen s then s.cut.carried else none) with
  | some x => x.mark
  | none => ((findEntry g.frame s).map WebEntry.mark).getD .none

/-- The target of the next cut is worked out again when the gap it uses is decided and it has not been commanded; a
target at or behind C falls due at once (R111). -/
def retarget (frame : Nat) (s : State) : State :=
  match s.cut.nextCut with
  | some x =>
    let uses := ((cutRecord s x.kind x.frame).map fun g => g.frame == frame).getD false
    if uses ∧ s.cut.state ≠ .cutting then
      checkDue (s.setCut { s.cut with nextCut := some { x with target := cutTarget s x.kind x.frame x.nominal } })
    else s
  | none => s

/-- The gap being searched is decided with its offset; the mark run returns to 0 and the search moves on (R114). -/
def decideGap (d : GapDecision) (offset : Int) (s : State) : State :=
  let s := updGap (fun g => { g with decision := d, offset := some offset }) s
  beginSearch (s.setCut { s.cut with markRun := 0 })

/-! ### The cutter fault (R119) -/

/-- The frame at the blade: that of the cut being made, or the oldest entry when its leading edge is made (R119). -/
def frameAtBlade (s : State) : Option Nat :=
  if s.cut.state = .cutting then s.cut.nextCut.map NextCut.frame
  else if s.cut.leadingMade then s.web.map.head?.map fun e => e.frame.number
  else none

/-- The frame at the blade is made dead: a live print is lost with the cause CUT_FAULT, a strip takes its dead mark
(R119, R98). Such a death is not in R73's list: a current frame keeps its supply, and its tags get no discard mark
(log 38). -/
def killAtBlade (n : Nat) (s : State) : State :=
  match findEntry n s with
  | some e =>
    if e.frame.isStrip then updEntry n (fun e => { e with frame := { e.frame with deadMark := true } }) s
    else loseOnWeb n .cutFault none s
  | none => s

/-- The cutter enters FAULT (R119): the frame at the blade dies, CUTTER_FAULT is sent, and the web goes to FAULT from
READY, CHANGEOVER or THREADING (R95). -/
def cutterFault (cause : CutFaultCause) (s : State) : State :=
  let blade := frameAtBlade s
  let s := s.setCut { s.cut with state := .fault }
  let s := match blade with
    | some n => killAtBlade n s
    | none => s
  let s := sendNotice .cutterFault
    (le1 cause.code ++ le4 s.web.c ++ frameField blade ++ le1 s.cut.missCount) s
  match s.web.state with
  | .ready => setWebState .fault s
  | .changeover => setWebState .fault s
  | .threading => setWebState .fault s
  | .unthreaded => s
  | .fault => s
  | .clearing => s

/-! ### Mark samples (R114 to R118) -/

/-- FOUND: the offset is a − m, the miss count 0 (R115). -/
def gapFound (g : GapRecord) (a m : Nat) (s : State) : State :=
  let o : Int := (a : Int) - m
  let s := s.setCut { s.cut with offset := o, missCount := 0 }
  retarget g.frame (decideGap .found o s)

/-- MISSED: the offset is held, the miss count rises and CUT_MARK_MISSED is sent; the third in a row is a fault
(R116). -/
def gapMissed (g : GapRecord) (m : Nat) (s : State) : State :=
  let o := s.cut.offset
  let misses := s.cut.missCount + 1
  let s := s.setCut { s.cut with missCount := misses }
  let s := decideGap .missed o s
  let s := sendNotice .cutMarkMissed (le2 g.frame ++ le4 m ++ le1s o ++ le1 misses) s
  if 3 ≤ misses then cutterFault .markMisses s else retarget g.frame s

/-- UNMARKED: the offset is held and the miss count stands (R117). -/
def gapUnmarked (g : GapRecord) (s : State) : State := retarget g.frame (decideGap .unmarked s.cut.offset s)

/-- One sample at coordinate `x` for the gap being searched (R114). -/
def takeSample (x : Nat) (seen : Bool) (s : State) : State :=
  match openGap s with
  | some g =>
    let w := g.window.getD s.set.settings.markWindow
    let atDecision := decide (g.gapStart + g.gap / 2 + w + 2 ≤ x)
    match gapMark s g with
    | .none => if atDecision then gapUnmarked g s else s
    | .pending => s
    | .printed =>
      let m := g.markCoord.getD (g.gapStart + g.gap / 2)
      if x + w < m then s
      else
        let run := if seen then min (s.cut.markRun + 1) 3 else 0
        let first := if s.cut.markRun = 0 then x else s.cut.markFirst
        let s := s.setCut { s.cut with markRun := run, markFirst := if seen then first else s.cut.markFirst }
        if run = 3 ∧ m ≤ first + w ∧ first ≤ m + w then gapFound g first m s
        else if atDecision then gapMissed g m s
        else s
  | none => s

/-- The cutter feed is driven: FEEDING toward a target, the web READY or CHANGEOVER, C below the target and below the
cutter limit F_in − path_fixed (R112). -/
def cutterDriven (s : State) : Bool :=
  match s.cut.nextCut with
  | some x =>
    s.cut.state == .feeding && s.web.state.feeds && decide ((s.web.c : Int) < x.target) &&
      decide (s.web.c + s.set.settings.pathFixed < s.web.fIn)
  | none => false

/-- The target the cutter feed is driven toward; none while it stands still (R112). -/
def cutterDrive (s : State) : Option Int := if cutterDriven s then s.cut.nextCut.map NextCut.target else none

/-- At the end of an event the cutter feed is commanded toward its target, or stopped, where that is not what it did
before the event (R112, R113, R119, R121). -/
def driveCutter (before : Option Int) (s : State) : State :=
  if cutterDrive s = before then s
  else
    match cutterDrive s with
    | some target => drive (.cutterFeed target) s
    | none => drive .cutterStop s

/-! ### New webs and clearing (R120, R121) -/

/-- CUT's values for a new or cleared web, but for the count of abandoned cuts (R120, R121). -/
def Cut.cleared (x : Cut) : Cut :=
  { x with
    state := .idle
    offset := 0
    missCount := 0
    nextCut := none
    leadingMade := false
    gaps := []
    carried := none
    markRun := 0 }

/-- A new web is threaded: a cutter in FAULT keeps its values (R120). -/
def cutNewWeb (s : State) : State := if s.cut.state = .fault then s else s.setCut s.cut.cleared

/-- Path clearing or RESET: a cut in progress is abandoned and counted (R121, R113). -/
def cutClear (s : State) : State :=
  let abandoned := if s.cut.state = .cutting then s.cut.abandoned + 1 else s.cut.abandoned
  s.setCut { s.cut.cleared with abandoned := abandoned }

/-- WEB tells CUT of an appended entry: its gap record is created OPEN, and with no next cut CUT chooses (R108,
R110). An append that finds the cutter in FAULT creates the record too, but no next cut is chosen: R119's list of what FAULT
holds back does not name it, and this is the model's choice (log 51). -/
def cutAppend (e : WebEntry) (s : State) : State :=
  let g : GapRecord := ⟨e.frame.number, e.start + e.frame.lf, e.frame.gap, e.markCoord, .undecided, none, none⟩
  let s := beginSearch (s.setCut { s.cut with gaps := s.cut.gaps ++ [g] })
  if s.cut.nextCut = none ∧ s.cut.state ≠ .fault then chooseCut s else s

end Sys2Proof.Machine
end

