-- ==== Sys2Proof/Machine/Sorter.lean ====
section
/-!
DEFINITION. SRT: transit queue and densitometer (7.1), bins (7.2), routing windows (7.3), reservation and release
(7.4), drops (7.5), sorter states (7.6).
-/
namespace Sys2Proof.Machine

/-! ### Routing (R129, R131) -/

/-- A window claims an order (R129). -/
def Window.claims (w : Window) (number source : Nat) : Bool :=
  w.enabled && decide (w.firstBin + w.binCount ≤ 24) && number / 2 ^ w.k == w.base / 2 ^ w.k &&
    w.mask.getLsbD source

/-- The routing range of an order, first bin and number of bins: that of the lowest-numbered window that claims it,
otherwise 0..23 (R129). -/
def routingRange (windows : List Window) (number source : Nat) : Nat × Nat :=
  match windows.find? fun w => w.claims number source with
  | some w => (w.firstBin, w.binCount)
  | none => (0, 24)

/-- The lowest-numbered FREE bin in a range (R131). -/
def freeBinIn (bins : List OrderBin) (range : Nat × Nat) : Option Nat :=
  ((List.range range.2).map (range.1 + ·)).find? fun b =>
    match bins[b]? with
    | some x => x.state == .free
    | none => false

/-- The lowest-numbered FREE bin in an order's routing range as decoded now (R129, R131). -/
def freeBinFor (s : State) (o : Order) : Option Nat :=
  freeBinIn s.srt.bins (routingRange s.srt.windows o.number o.source)

/-- A bin record changed. -/
def updBin (b : Nat) (f : OrderBin → OrderBin) (s : State) : State :=
  s.setSrt { s.srt with bins := s.srt.bins.modify b f }

/-- A bin becomes ASSIGNED to an order with count 0, and ORT appends it to the order's bins list (R131, R134,
R22). -/
def assignBin (b slot number : Nat) (s : State) : State :=
  let s := updBin b (fun x => { x with state := .assigned, owner := some number, count := 0 }) s
  match s.orderAt slot number with
  | some o => s.setOrder slot (some { o with bins := o.bins ++ [b] })
  | none => s

/-- One bin is released: EMPTYING when a drop is routed to it, FREE when its count is 0 and it reads EMPTY, otherwise
EMPTYING (R132). -/
def OrderBin.release (x : OrderBin) (dropping : Bool) : OrderBin :=
  if dropping then { x with state := .emptying, owner := none }
  else if x.count = 0 ∧ x.sensor.filtered = some .empty then { x with state := .free, owner := none }
  else { x with state := .emptying, owner := none }

/-- The bin the drop in progress is routed to. -/
def dropBin (s : State) : Option Nat := if s.srt.dropping then s.srt.transit.head?.bind Piece.routed else none

/-- SRT releases the bins of an order (R132). A bin becoming FREE is an eligibility change (R30). -/
def releaseBins (bins : List Nat) (s : State) : State :=
  let d := dropBin s
  owePass (bins.foldl (fun s b => updBin b (fun x => x.release (d == some b)) s) s)

/-! ### Holding bins and the sorter state (R137) -/

/-- Both holding bins are OPEN. -/
def Srt.bothOpen (x : Srt) : Bool := !x.overflow.full && !x.reject.full

/-- A holding bin, 24 or 25. -/
def Srt.holding (x : Srt) (b : Nat) : HoldBin := if b = 24 then x.overflow else x.reject

/-- A holding bin replaced. -/
def Srt.setHolding (x : Srt) (b : Nat) (h : HoldBin) : Srt :=
  if b = 24 then { x with overflow := h } else { x with reject := h }

/-- The capacity of a holding bin (R125). -/
def holdCapacity (s : State) (b : Nat) : Nat :=
  if b = 24 then s.set.settings.overflowCapacity else s.set.settings.rejectCapacity

/-- A holding bin becomes FULL: REJECT_FULL, and the sorter in RUN goes to HOLD (R137). -/
def holdingFull (b : Nat) (s : State) : State :=
  let h := s.srt.holding b
  let s := s.setSrt (s.srt.setHolding b { h with full := true })
  let s := if s.srt.state = .run then s.setSrt { s.srt with state := .hold } else s
  sendNotice .rejectFull (le1 b ++ le1 h.count) s

/-- A holding bin becomes OPEN: a sorter in HOLD returns to RUN when both are OPEN (R137). -/
def holdingOpen (b : Nat) (s : State) : State :=
  let h := s.srt.holding b
  let s := s.setSrt (s.srt.setHolding b { h with full := false })
  if s.srt.state = .hold ∧ s.srt.bothOpen then s.setSrt { s.srt with state := .run } else s

/-- The sorter leaves FAULT or is cleared: RUN with both holding bins OPEN, otherwise HOLD (R139, R142). -/
def sorterRestart (s : State) : State :=
  s.setSrt { s.srt with state := if s.srt.bothOpen then .run else .hold, jammed := false }

/-! ### Pieces (R123, R124) -/

/-- A piece joins the transit queue; a strip that is not dead and EXPOSED is read (R123, R124). -/
def appendPiece (e : WebEntry) (s : State) : State :=
  let read := e.frame.isStrip && !e.frame.dead && e.webState == .exposed
  let p : Piece := ⟨e.frame, e.webState, if read then .awaited else .none, none⟩
  let s := s.setSrt { s.srt with transit := s.srt.transit ++ [p] }
  if read then drive .readDensitometer s else s

/-- A piece leaving with its reading AWAITED raises the count of readings to discard (R124). -/
def noteDiscard (p : Piece) (s : State) : State :=
  if p.reading = .awaited then s.setSrt { s.srt with discards := s.srt.discards + 1 } else s

/-- The head piece leaves by a drop completion or SORTER_RESUME: a strip not yet read is reported to EXU, and a free
place to CUT (R123, R124). -/
def headLeaves (s : State) : State :=
  match s.srt.transit with
  | p :: rest =>
    let s := s.setSrt { s.srt with transit := rest }
    let s := noteDiscard p s
    let s := if p.frame.isStrip && p.reading != .taken then stripUnread p.frame.mag p.frame.number s else s
    freePlace s
  | [] => s

/-! ### Drops (R133 to R135) -/

/-- A drop can start: the sorter is RUN, none is in progress, a piece waits (R133). Between the moments R133 names this
does not turn from false to true; the start itself is the command DROP_START (log 1). -/
def dropReady (s : State) : Bool := s.srt.state == .run && !s.srt.dropping && !s.srt.transit.isEmpty

/-- The head piece starts its drop to a bin (R133). -/
def startDrop (b : Nat) (s : State) : State :=
  let routed := match s.srt.transit with
    | p :: rest => { p with routed := some b } :: rest
    | [] => []
  drive (.drop b) (s.setSrt { s.srt with transit := routed, dropping := true })

/-- The count of an order bin, 0 for a bin that is none. -/
def binCountOf (s : State) (b : Nat) : Nat := (s.srt.bins[b]?.map OrderBin.count).getD 0

/-- The route of a live print: the newest bin below its capacity, else a further FREE bin, else the overflow bin
(R134). -/
def routePrint (r : PrintRef) (frame : Nat) (s : State) : State :=
  match s.orderAt r.slot r.number with
  | some o =>
    let roomy := match o.bins.getLast? with
      | some b => if binCountOf s b < s.set.settings.binCapacity then some b else none
      | none => none
    match roomy with
    | some b => startDrop b s
    | none =>
      match (if o.bins.length < 4 then freeBinFor s o else none) with
      | some b => startDrop b (assignBin b r.slot r.number s)
      | none =>
        let s := s.setOrder r.slot (some { o with overflowUsed := true })
        let s := sendNotice .overflowUsed
          (le4 r.number ++ le1 r.line ++ le2 frame ++ le1 s.srt.overflow.count) s
        startDrop 24 s
  | none => startDrop 25 s

/-- SRT routes the head piece and commands the transport (R133, R134). -/
def dropStart (s : State) : State :=
  match s.srt.transit with
  | p :: _ =>
    match p.frame.ref with
    | some r => if p.frame.live then routePrint r p.frame.number s else startDrop 25 s
    | none => startDrop 25 s
  | [] => s

/-- A piece lands in its bin: the count rises; an ASSIGNED bin at its capacity is FULL, a holding bin at its own is
FULL (R135). -/
def landIn (b : Nat) (s : State) : State :=
  if b < 24 then
    updBin b (fun x =>
      let n := x.count + 1
      { x with
        count := n
        state := if x.state = .assigned ∧ s.set.settings.binCapacity ≤ n then .full else x.state }) s
  else
    let h := s.srt.holding b
    let n := h.count + 1
    let s := s.setSrt (s.srt.setHolding b { h with count := n })
    if h.full = false ∧ holdCapacity s b ≤ n then holdingFull b s else s

/-- A drop completes (R135): the piece lands, a live print is credited, the head leaves. -/
def dropDone (s : State) : State :=
  match s.srt.transit with
  | p :: _ =>
    let s := s.setSrt { s.srt with dropping := false }
    let s := landIn (p.routed.getD 25) s
    let s := match p.frame.ref with
      | some r =>
        if p.frame.live then
          let s := reportDelivered r s
          if p.frame.unregistered then s.setSrt { s.srt with unregDone := s.srt.unregDone + 1 } else s
        else s
      | none => s
    headLeaves s
  | [] => s.setSrt { s.srt with dropping := false }

/-- A drop in progress is ended by path clearing or RESET: the transport is commanded nothing and still ends that drop
with a completion, which will be discarded (R133). -/
def endDrop (s : State) : State :=
  if s.srt.dropping then s.setSrt { s.srt with dropping := false, ended := s.srt.ended + 1 } else s

/-- The head piece is the jammed piece; a live print is made dead and lost (R138). -/
def jamHead (s : State) : State :=
  match s.srt.transit with
  | p :: rest =>
    let lives := p.frame.live && !p.frame.isStrip
    let p' := { p with frame := { p.frame with live := false } }
    let s := s.setSrt { s.srt with transit := p' :: rest, dropping := false, jammed := true }
    match p.frame.ref with
    | some r => if lives then accountLoss ⟨p.frame, r, .sorterJam, .transit, none⟩ s else s
    | none => s
  | [] => s.setSrt { s.srt with dropping := false }

/-- SORTER_FAULT is sent (R138), behind the notices of a loss (log 58). -/
def sorterFaultNotice (s : State) : State :=
  let p := if s.srt.jammed then s.srt.transit.head? else none
  sendNotice .sorterFault
    (frameField (p.map fun p => p.frame.number) ++ openField1 .pieceKind (p.map fun p => p.frame.job.code) ++
      indexField (p.bind Piece.routed) ++ countField s.srt.transit.length) s

/-! ### Bin sensors (R127, R128) -/

/-- One sample of a bin's sensor through the filter: the filtered reading changes, or is first set, when three
consecutive samples agree (R127). The Bool says that it changed. -/
def Sensor.sample (x : Sensor) (v : Occupancy) : Sensor × Bool :=
  let n := if x.last = some v then min (x.count + 1) 3 else 1
  if n = 3 ∧ x.filtered ≠ some v then (⟨some v, some v, n⟩, true) else (⟨x.filtered, some v, n⟩, false)

/-- An owned bin with prints is found EMPTY: count 0, ASSIGNED, the order's flag set, BIN_REMOVED_EARLY (R127, R22). -/
def emptiedEarly (b : Nat) (x : OrderBin) (s : State) : State :=
  let s := updBin b (fun x => { x with state := .assigned, count := 0 }) s
  let s := match x.owner with
    | some n => modOrder n (fun o => { o with binEmptiedEarly := true }) s
    | none => s
  sendNotice .binRemovedEarly (le1 b ++ orderField x.owner ++ le1 x.count) s

/-- An order bin takes a sensor event with the new filtered reading already recorded (R127). -/
def orderBinEvent (b : Nat) (v : Occupancy) (s : State) : State :=
  match s.srt.bins[b]? with
  | some x =>
    match x.state, v with
    | .free, .occupied => updBin b (fun x => { x with state := .unclaimed }) s
    | .unclaimed, .empty => owePass (updBin b (fun x => { x with state := .free, count := 0 }) s)
    | .emptying, .empty => owePass (updBin b (fun x => { x with state := .free, count := 0 }) s)
    | .assigned, .empty =>
      if 0 < x.count then emptiedEarly b x s else s
    | .full, .empty =>
      if 0 < x.count then owePass (emptiedEarly b x s) else s
    | .free, .empty => s
    | .unclaimed, .occupied => s
    | .emptying, .occupied => s
    | .assigned, .occupied => s
    | .full, .occupied => s
  | none => s

/-- A holding bin takes a sensor event with the new filtered reading already recorded (R128). -/
def holdingBinEvent (b : Nat) (v : Occupancy) (s : State) : State :=
  match v with
  | .empty =>
    let h := s.srt.holding b
    let s := s.setSrt (s.srt.setHolding b { h with count := 0 })
    if h.full then holdingOpen b s else s
  | .occupied => s

/-- One sample of a bin's sensor (R127, R128). The first setting of a holding bin's reading is recorded and no more
(R128). -/
def binSample (b : Nat) (v : Occupancy) (s : State) : State :=
  if b < 24 then
    match s.srt.bins[b]? with
    | some x =>
      let (sensor, changed) := x.sensor.sample v
      let s := updBin b (fun x => { x with sensor := sensor }) s
      if changed then orderBinEvent b v s else s
    | none => s
  else
    let h := s.srt.holding b
    let (sensor, changed) := h.sensor.sample v
    let s := s.setSrt (s.srt.setHolding b { h with sensor := sensor })
    if changed && h.sensor.filtered.isSome then holdingBinEvent b v s else s

/-! ### Capacities (R126) -/

/-- The write of the order bin capacity is refused: below a bin's count, or below the count plus 1 of a bin a drop
is entering (R126). -/
def binCapacityBusy (s : State) (cap : Nat) : Bool :=
  s.srt.bins.any (fun x => decide (cap < x.count)) ||
    match dropBin s with
    | some b => decide (b < 24) && decide (cap < binCountOf s b + 1)
    | none => false

/-- The same for the capacity of a holding bin. -/
def holdCapacityBusy (s : State) (b cap : Nat) : Bool :=
  let n := (s.srt.holding b).count
  decide (cap < n) || (dropBin s == some b && decide (cap < n + 1))

/-- A bin brought into line with a new order bin capacity (R126). -/
def OrderBin.realign (cap : Nat) (x : OrderBin) : OrderBin :=
  match x.state with
  | .assigned => if x.count = cap then { x with state := .full } else x
  | .full => if x.count < cap then { x with state := .assigned } else x
  | .free => x
  | .emptying => x
  | .unclaimed => x

/-- The order bins are brought into line; a bin that left FULL is an eligibility change (R126, R30). -/
def realignBins (cap : Nat) (s : State) : State :=
  owePass (s.setSrt { s.srt with bins := s.srt.bins.map (OrderBin.realign cap) })

/-- A holding bin is brought into line (R126, R137). -/
def realignHolding (b cap : Nat) (s : State) : State :=
  let h := s.srt.holding b
  if h.full then (if h.count < cap then holdingOpen b s else s)
  else if h.count = cap then holdingFull b s
  else s

end Sys2Proof.Machine
end

