-- ==== Sys2Proof/Machine/Selection.lean ====
section
/-!
DEFINITION. SCH: what may be scheduled (2.3), the selection pass (2.4), control strips (2.5), the changeover ask (2.7),
the paper test (2.8).
-/
namespace Sys2Proof.Machine

/-! ### Eligibility (R28, R29) -/

/-- The width of a magazine equals the paper width of the line's size-table entry, and the surfaces are equal
(R28). -/
def magMatches (s : State) (l : Line) (m : Mag) : Bool :=
  let r := s.web.mag m
  r.width == (s.exu.sizes.getD l.size SizeEntry.unset).width && r.surface == l.surface

/-- A matching magazine is usable by its state and by whether it is active; none is while WEB names no active
magazine (R28). -/
def magUsable (s : State) (l : Line) (m : Mag) : Bool :=
  magMatches s l m &&
    match s.web.active with
    | none => false
    | some active =>
      match (s.web.mag m).state with
      | .ready => true
      | .calNeeded => if m = active then s.set.settings.calibrationRequired == 0 else true
      | .absent => false
      | .empty => false

/-- The order can take another print (R29, condition 4). -/
def binCondition (s : State) (o : Order) : Bool :=
  let free := (freeBinFor s o).isSome
  match o.bins.getLast? with
  | none => free
  | some b =>
    (match s.srt.bins[b]? with
      | some x => x.state == .assigned && decide (x.count < s.set.settings.binCapacity)
      | none => false) ||
      (decide (o.bins.length < 4) && free)

/-- The order is ACCEPTED or ACTIVE (R13: treated alike). -/
def OrderState.schedulable : OrderState → Bool
  | .accepted => true
  | .active => true
  | .complete => false
  | .failing => false
  | .failed => false

/-- A line wants frames: its order is schedulable with priority 1 or more, the line has not failed and has copies
unscheduled (R29, conditions 1 and 2). -/
def lineOpen (o : Order) (l : Line) : Bool :=
  o.state.schedulable && decide (1 ≤ o.priority) && l.failed.isNone && decide (1 ≤ l.unscheduled)

/-- A line is eligible (R29). -/
def eligible (s : State) (o : Order) (l : Line) : Bool :=
  lineOpen o l && (magUsable s l .a || magUsable s l .b) && binCondition s o

/-- A line of the table with its place. -/
structure Candidate where
  slot  : Nat
  order : Order
  index : Nat
  line  : Line
  deriving DecidableEq, Repr

/-- The lines of an order with their indices, from `i` on. -/
def orderCandidates (slot : Nat) (o : Order) : Nat → List Line → List Candidate
  | _, [] => []
  | i, l :: ls => ⟨slot, o, i, l⟩ :: orderCandidates slot o (i + 1) ls

/-- Every line of every occupied slot, from slot `i` on. -/
def candidates : Nat → List (Option Order) → List Candidate
  | _, [] => []
  | i, none :: rest => candidates (i + 1) rest
  | i, some o :: rest => orderCandidates i o 1 o.lines ++ candidates (i + 1) rest

/-- The eligible lines. -/
def eligibleLines (s : State) : List Candidate :=
  (candidates 0 s.ort.slots).filter fun c => eligible s c.order c.line

/-! ### Selection (R31, R32) -/

/-- The keys of R31 step 3 and R32: highest priority, then lowest intake sequence, then lowest line index. -/
def Candidate.key (c : Candidate) : List Nat := [15 - c.order.priority, c.order.seq, c.index]

/-- The first of the candidates by their keys. -/
def bestOf : List Candidate → Option Candidate
  | [] => none
  | c :: cs =>
    match bestOf cs with
    | none => some c
    | some d => if lexLt d.key c.key then some d else some c

/-- The highest priority among candidates, 0 for none. -/
def topPriority (cs : List Candidate) : Nat := (cs.map fun c => c.order.priority).foldl max 0

/-- What a selection yields: the flag as it then stands, and the line with the magazine its frame is given. -/
structure Selection where
  changeover : Changeover
  choice     : Option (Candidate × Mag)
  deriving DecidableEq, Repr

/-- Selection toward a changeover target (R32). -/
def selectTarget (s : State) (cs : List Candidate) (flag : Changeover) (t : Mag) : Selection :=
  ⟨flag, (bestOf (cs.filter fun c => magUsable s c.line t)).map fun c => (c, t)⟩

/-- The selection of R31 and R32. -/
def select (s : State) : Selection :=
  let cs := eligibleLines s
  match s.sch.changeover with
  | .pending t => selectTarget s cs (.pending t) t
  | .asked t => selectTarget s cs (.asked t) t
  | .clear =>
    match s.web.active with
    | none => ⟨.clear, none⟩
    | some active =>
      let onActive := cs.filter fun c => magUsable s c.line active
      let top := topPriority cs
      if cs.isEmpty then ⟨.clear, none⟩
      else if onActive.any fun c => c.order.priority == top then
        ⟨.clear, (bestOf (onActive.filter fun c => c.order.priority == top)).map fun c => (c, active)⟩
      else if s.set.settings.changeoverPriority ≤ top ∨ onActive.isEmpty then
        selectTarget s cs (.pending active.other) active.other
      else ⟨.clear, (bestOf onActive).map fun c => (c, active)⟩

/-! ### Frame creation (R26, R27, R33, R35) -/

/-- A frame number is that of a record still held (R26). -/
def numberHeld (s : State) (n : Nat) : Bool :=
  (s.sch.queue.any fun f => f.number == n) || (s.web.map.any fun e => e.frame.number == n) ||
    s.srt.transit.any fun p => p.frame.number == n

/-- The value after a frame number: 0 follows 65,534, and 65,535 is never given (R26). -/
def succNumber (n : Nat) : Nat := if 65534 ≤ n then 0 else n + 1

/-- The next frame number, passing over those of records still held. At most 52 records are held, so 53 tries always
find one. -/
def nextNumber (s : State) : Nat → Nat → Nat
  | 0, n => succNumber n
  | fuel + 1, n => if numberHeld s (succNumber n) then nextNumber s fuel (succNumber n) else succNumber n

/-- The number SCH gives to the next frame. -/
def newNumber (s : State) : Nat := nextNumber s 53 s.sch.counter

/-- SCH creates the frame of a selected line: the bin when the order has none (R33 step 1), the record (R27) at its
position (R25), the report (R33 step 3). The frame of a remade or cleared copy takes the place its keys give, also ahead of
frames already queued (R25, R161; log 41). -/
def createPrint (c : Candidate) (m : Mag) (s : State) : State :=
  let s := if c.order.bins.isEmpty then
      match freeBinFor s c.order with
      | some b => assignBin b c.slot c.order.number s
      | none => s
    else s
  let entry := s.exu.sizes.getD c.line.size SizeEntry.unset
  let number := newNumber s
  let ref : PrintRef := ⟨c.slot, c.order.number, c.index, c.line.d + c.line.f + 1, c.line.size⟩
  let f : Frame := ⟨number, .print ref, m, entry.lf, entry.gap, true, false, none, false⟩
  let s := s.setSch { s.sch with counter := number, queue := placeFrame s f s.sch.queue }
  oweQueue (reportCreated ref s)

/-- SCH creates the control strip of a magazine (R27, R35). -/
def createStrip (m : Mag) (s : State) : State :=
  let number := newNumber s
  let f : Frame := ⟨number, .strip, m, 400, 20, false, false, none, false⟩
  let s := s.setSch { s.sch with counter := number, queue := placeStrip s.sch.committed f s.sch.queue }
  oweQueue (s.setMark m (.created number))

/-- A changeover away from the active magazine has been asked (R35, R63). -/
def Changeover.isAsked : Changeover → Bool
  | .clear => false
  | .pending _ => false
  | .asked _ => true

/-- The magazine whose strip is due (R35). -/
def stripDue (s : State) : Option Mag :=
  match s.web.active with
  | some m => if s.sch.mark m = .awaiting ∧ s.sch.changeover.isAsked = false ∧ s.sch.hasRoom then some m else none
  | none => none

/-! ### The selection pass (R30, R41) -/

/-- A line wants paper (R41). -/
def wantsPaper (s : State) (o : Order) (l : Line) : Bool :=
  lineOpen o l && !([Mag.a, Mag.b].any fun m => magMatches s l m && (s.web.mag m).state.loaded)

/-- The body of PAPER_NEEDED (R41, R183). -/
def paperNeededBody (s : State) (o : Order) (i : Nat) (l : Line) : List Byte :=
  le4 o.number ++ le1 i ++ le1 l.size ++ le2 (s.exu.sizes.getD l.size SizeEntry.unset).width ++ le1 l.surface.code

/-- The paper test of one line: its mark, and PAPER_NEEDED when it comes to want paper (R41). -/
def paperTest (c : Candidate) (s : State) : State :=
  let wants := wantsPaper s c.order c.line
  if wants = c.line.paperWait then s
  else
    let ref : PrintRef := ⟨c.slot, c.order.number, c.index, 0, c.line.size⟩
    let s := applyReport ref (fun l => { l with paperWait := wants }) s
    if wants then sendNotice .paperNeeded (paperNeededBody s c.order c.index c.line) s else s

/-- Stage 1 of a pass: the paper test of every line of every occupied order (R30, R41). The spec names no order of the
lines; the model goes by slot number, then line index (log 34). -/
def paperStage (s : State) : State := (candidates 0 s.ort.slots).foldl (fun s c => paperTest c s) s

/-- Stage 3 of a pass: while the queue has room and the selection yields a line, its frame is created (R30). Each turn
fills a place of the queue, so `fuel` 16 is enough. -/
def frameStage : Nat → State → State
  | 0, s => s
  | fuel + 1, s =>
    if s.sch.hasRoom then
      let x := select s
      let s := s.setSch { s.sch with changeover := x.changeover }
      match x.choice with
      | some (c, m) => frameStage fuel (createPrint c m s)
      | none => s
    else s

/-- The selection pass (R30). -/
def selectionPass (s : State) : State :=
  let s := paperStage s
  let s := match stripDue s with
    | some m => createStrip m s
    | none => s
  oweAsk (frameStage 16 s)

/-! ### The changeover ask (R40) -/

/-- The target to ask for: the flag is PENDING and the queue holds no frame for the active magazine (R40). -/
def askDue (s : State) : Option Mag :=
  match s.sch.changeover with
  | .pending t => if (s.web.active.map s.sch.holds).getD false then none else some t
  | .clear => none
  | .asked _ => none

/-- SCH moves the flag to ASKED and asks WEB (R40). -/
def askChangeover (t : Mag) (s : State) : State :=
  takeAsk t (s.setSch { s.sch with changeover := .asked t })

/-! ### The run test (R100) -/

/-- The run test of R100 fails: web READY, no run, the head frame carries the active magazine, and remaining is below
Lf + G + path_fixed. -/
def runTestFails (s : State) : Option Mag :=
  match s.web.active, s.sch.queue with
  | some m, f :: _ =>
    if s.web.state = .ready ∧ s.web.run = none ∧ f.mag = m ∧
        (s.web.mag m).remaining < f.lf + f.gap + s.set.settings.pathFixed then some m else none
  | _, _ => none

/-- WEB makes the run test; when it fails the active magazine becomes EMPTY (R100). -/
def runTest (s : State) : State :=
  match runTestFails s with
  | some m => emptyOrDrop m .runTest (s.web.mag m).remaining s
  | none => s

/-- All seven conditions of a run start hold (R99), and no run is in progress (log 16). -/
def runReady (s : State) : Bool :=
  match s.sch.queue with
  | f :: _ =>
    let m := s.web.mag f.mag
    s.web.state == .ready && s.exu.head == .ready && s.web.run.isNone &&
      s.sch.committed && s.ifu.primed && s.web.active == some f.mag &&
      (m.state == .ready ||
        (m.state == .calNeeded && (f.isStrip || s.set.settings.calibrationRequired == 0))) &&
      decide (f.lf + f.gap + s.set.settings.pathFixed ≤ m.remaining) &&
      decide (s.loop + f.lf + f.gap ≤ s.set.settings.loopMax) &&
      decide (s.web.map.length < 32)
  | [] => false

end Sys2Proof.Machine
end

