-- ==== Sys2Proof/Machine/Fetch.lean ====
section
/-!
DEFINITION. IFU: the mapping of lines to rows (4.2), the read-ahead window and the issue of fetches (4.3), priming,
responses (4.6) and timeouts (4.7).
-/
namespace Sys2Proof.Machine

/-! ### From crop to print lines (R68) -/

/-- The top row and height of a line's crop, or of the whole image (R68). -/
def Line.rows (l : Line) : Nat × Nat :=
  match l.crop with
  | some c => (c.y0, c.h)
  | none => (0, l.height)

/-- The left edge and width of a line's crop, or of the whole image (R68). -/
def Line.columns (l : Line) : Nat × Nat :=
  match l.crop with
  | some c => (c.x0, c.w)
  | none => (0, l.width)

/-- The row below the crop's top that print line `k` shows: (k × h) div Lf (R68). -/
def rowOffset (h lf k : Nat) : Nat := (k * h) / lf

/-- source row = y0 + (k × h) div Lf (R68). -/
def sourceRow (l : Line) (lf k : Nat) : Nat := l.rows.1 + rowOffset l.rows.2 lf k

/-- The lowest print line that maps to the row `rel` below the top: the least k with rel × Lf ≤ k × h (R68). -/
def firstLineOf (h lf rel : Nat) : Nat := (rel * lf + h - 1) / h

/-- The highest print line, below Lf, that maps to the row `rel` below the top (R68). -/
def lastLineOf (h lf rel : Nat) : Nat := min (firstLineOf h lf (rel + 1) - 1) (lf - 1)

/-- The out width: 12 pixels per millimetre of the width of the frame's magazine (R71). -/
def outWidth (s : State) (m : Mag) : Nat := 12 * (s.web.mag m).width

/-! ### Slots and tags (R66, R67) -/

/-- A slot serves print line `k` of frame `n`. -/
def LineSlot.serves (n k : Nat) : LineSlot → Bool
  | .empty => false
  | .awaited f first last _ _ => f == n && decide (first ≤ k) && decide (k ≤ last)
  | .filled f first last _ _ => f == n && decide (first ≤ k) && decide (k ≤ last)

/-- A FILLED slot serves print line `k` of frame `n`. -/
def LineSlot.holdsLine (n k : Nat) : LineSlot → Bool
  | .empty => false
  | .awaited _ _ _ _ _ => false
  | .filled f first last _ _ => f == n && decide (first ≤ k) && decide (k ≤ last)

def LineSlot.isEmpty : LineSlot → Bool
  | .empty => true
  | .awaited _ _ _ _ _ => false
  | .filled _ _ _ _ _ => false

def FetchTag.isFree : FetchTag → Bool
  | .free => true
  | .outstanding _ _ _ => false
  | .expired _ _ => false

/-! ### The window (R69, R70) -/

/-- One of the supply frames with the lines of the window that are its own (R69, R70). -/
structure Supply where
  frame : Nat
  ref   : PrintRef
  mag   : Mag
  lf    : Nat
  start : Nat
  count : Nat
  head  : Bool
  deriving DecidableEq, Repr

/-- The current frame's part of the window. A strip's lines are all ready, and so are those of a frame whose supply
is abandoned: read-ahead moves on to the head at once (R69, R73, log 10). -/
def currentSupply (s : State) : List Supply :=
  match s.ifu.current with
  | some c =>
    match c.job with
    | .print r => [⟨c.frame, r, c.mag, c.lf, c.next, min s.set.settings.readAhead (c.lf - c.next), false⟩]
    | .strip => []
  | none => []

/-- The head's part of the window: its lines from 0 on until `left` lines are counted, once it is committed or offered
(R70). -/
def headSupply (s : State) (left : Nat) : List Supply :=
  match s.sch.queue with
  | f :: _ =>
    match f.job with
    | .print r =>
      if s.sch.committed || offerable s f then [⟨f.number, r, f.mag, f.lf, 0, min left f.lf, true⟩] else []
    | .strip => []
  | [] => []

/-- The supply frames in the order their needs are served: the current frame before the head (R71). -/
def supplies (s : State) : List Supply :=
  let cur := currentSupply s
  cur ++ headSupply s (s.set.settings.readAhead - (cur.map Supply.count).sum)

/-- What waits for a tag: an AWAITED slot without one, or a window line that needs a fetch (R70, R71). -/
inductive Need where
  | retry (slot row : Nat)
  | line (k : Nat)
  deriving DecidableEq, Repr

/-- The AWAITED slot without a tag of frame `n` with the lowest first line: its place, first line and row. -/
def firstRetry (n : Nat) : Nat → List LineSlot → Option (Nat × Nat × Nat)
  | _, [] => none
  | i, x :: xs =>
    let later := firstRetry n (i + 1) xs
    match x with
    | .awaited f first _ row none =>
      if f = n then
        match later with
        | some (_, first', _) => if first' < first then later else some (i, first, row)
        | none => some (i, first, row)
      else later
    | .awaited _ _ _ _ (some _) => later
    | .empty => later
    | .filled _ _ _ _ _ => later

/-- The lowest line of a supply frame's window that needs a fetch (R70). -/
def firstUnserved (s : State) (x : Supply) : Option Nat :=
  ((List.range x.count).map (x.start + ·)).find? fun k => !s.ifu.slots.any (LineSlot.serves x.frame k)

/-- The first need of a supply frame in print-line order; an AWAITED slot is placed by its first line (R71). -/
def needOf (s : State) (x : Supply) : Option Need :=
  match firstRetry x.frame 0 s.ifu.slots, firstUnserved s x with
  | some (i, first, row), some k => if k < first then some (.line k) else some (.retry i row)
  | some (i, _, row), none => some (.retry i row)
  | none, some k => some (.line k)
  | none, none => none

/-- The first need, with the frame it belongs to. -/
def firstNeed (s : State) : List Supply → Option (Supply × Need)
  | [] => none
  | x :: xs =>
    match needOf s x with
    | some n => some (x, n)
    | none => firstNeed s xs

/-! ### Issuing fetches (R71, R181) -/

/-- The Image link transmitter, when idle, begins the oldest waiting FETCH (R181). -/
def startImageTx (s : State) : State :=
  match s.lnk.imageTx, s.lnk.imageWaiting with
  | none, f :: rest =>
    drive (.imageFrame (frameBytes 0x60 (BitVec.ofNat 8 f.tag) f.body))
      (s.setLnk { s.lnk with imageTx := some f, imageWaiting := rest })
  | _, _ => s

/-- A tag takes a fetch for a slot, and its FETCH goes to the transmitter (R71). The fetch timer starts when the FETCH
is sent (R67, R181). -/
def sendFetch (tag slot : Nat) (x : Supply) (l : Line) (row : Nat) (s : State) : State :=
  let w := outWidth s x.mag
  let info : FetchInfo := ⟨x.frame, l.imageId, row, w⟩
  let s := s.setIfu { s.ifu with tags := s.ifu.tags.set tag (.outstanding info (some slot) none) }
  startImageTx (s.setLnk { s.lnk with
    imageWaiting := s.lnk.imageWaiting ++ [⟨tag, fetchBody l.imageId row l.columns.1 l.columns.2 w⟩] })

/-- The first FETCH issued for an offered print head commits it (R69, R71). -/
def commitFor (x : Supply) (s : State) : State :=
  if x.head then s.setSch { s.sch with committed := true } else s

/-- A need is served with a FREE tag (R71). -/
def serveNeed (tag : Nat) (x : Supply) (n : Need) (l : Line) (s : State) : Option State :=
  match n with
  | .retry i row =>
    match s.ifu.slots[i]? with
    | some (.awaited f first last row' _) =>
      let s := s.setIfu { s.ifu with slots := s.ifu.slots.set i (.awaited f first last row' (some tag)) }
      some (sendFetch tag i x l row s)
    | _ => none
  | .line k =>
    match s.ifu.slots.findIdx? LineSlot.isEmpty with
    | some i =>
      let h := l.rows.2
      let rel := rowOffset h x.lf k
      let row := sourceRow l x.lf k
      let slot := LineSlot.awaited x.frame (firstLineOf h x.lf rel) (lastLineOf h x.lf rel) row (some tag)
      let s := s.setIfu { s.ifu with slots := s.ifu.slots.set i slot }
      some (commitFor x (sendFetch tag i x l row s))
    | none => none

/-- One fetch is issued, when there is a need and a FREE tag (R71). A frame killed at the blade can outlive its order: what
is fetched for it then the spec does not say; the model issues no fetch at all, for the head neither, while the first need
is such a frame's (log 43). Where the order's number has been submitted again into the same slot (R1), the model takes the new
order's line of that index for the dead frame's and fetches its rows (log 47). -/
def issueOne (s : State) : Option State :=
  match s.ifu.tags.findIdx? FetchTag.isFree with
  | some tag =>
    match firstNeed s (supplies s) with
    | some (x, n) =>
      match lineOf s x.ref with
      | some l => serveNeed tag x n l s
      | none => none
    | none => none
  | none => none

/-- Fetches are issued while there are needs and FREE tags; eight tags, so `fuel` 8 is enough (R71). -/
def issueFetches : Nat → State → State
  | 0, s => s
  | fuel + 1, s =>
    match issueOne s with
    | some s' => issueFetches fuel s'
    | none => s

/-- An offered strip head is committed at the offer and primed at once (R69, R72). -/
def commitStrip (s : State) : State :=
  match s.sch.queue with
  | f :: _ =>
    if f.isStrip && !s.sch.committed && offerable s f then
      let s := s.setSch { s.sch with committed := true }
      oweRun (s.setIfu { s.ifu with primed := true })
    else s
  | [] => s

/-- IFU looks at the head and the window (R69 to R71). -/
def ifuService (s : State) : State := issueFetches 8 (commitStrip s)

/-! ### Priming (R72) -/

/-- The committed head is primed when each of its first min(D, Lf) lines is served by a FILLED slot (R72). -/
def primedNow (s : State) (f : Frame) : Bool :=
  (List.range (min s.set.settings.readAhead f.lf)).all fun k => s.ifu.slots.any (LineSlot.holdsLine f.number k)

/-- The test of R72, made at each slot of the committed head that becomes FILLED, and at no other moment: a lowering of D
primes no head (log 37). -/
def primeTest (frame : Nat) (s : State) : State :=
  match committedHead s with
  | some f =>
    if f.number = frame ∧ s.ifu.primed = false ∧ primedNow s f then
      oweRun (s.setIfu { s.ifu with primed := true })
    else s
  | none => s

/-! ### Responses (R77 to R80) -/

/-- STRAY_DATA (R77). A body of fewer than nine bytes is not read at all: its image id and row are free values, also
where it holds their bytes (log 15). -/
def strayData (tag : Nat) (reason : StrayReason) (msg : Option DataMsg) (s : State) : State :=
  sendNotice .strayData
    (le1 tag ++ le1 reason.code ++ openField4 .imageId (msg.map DataMsg.imageId) ++
      openField2 .sourceRow (msg.map DataMsg.row)) s

/-- A tag replaced. -/
def setTag (t : Nat) (x : FetchTag) (s : State) : State := s.setIfu { s.ifu with tags := s.ifu.tags.set t x }

/-- A slot replaced. -/
def setSlot (i : Nat) (x : LineSlot) (s : State) : State := s.setIfu { s.ifu with slots := s.ifu.slots.set i x }

/-- OK: the slot is FILLED with the row (R78). -/
def fillSlot (i : Nat) (pixels : List (RGB Byte)) (s : State) : State :=
  match s.ifu.slots[i]? with
  | some (.awaited f first last row _) => primeTest f (setSlot i (.filled f first last row pixels) s)
  | _ => s

/-- BUSY: the slot stays AWAITED without a tag (R79). An expiry leaves it so too (R81). -/
def untagSlot (i : Nat) (s : State) : State :=
  match s.ifu.slots[i]? with
  | some (.awaited f first last row _) => setSlot i (.awaited f first last row none) s
  | _ => s

/-- NO_IMAGE or ROW_RANGE: the slot is freed and the frame is lost; the committed head leaves the queue first, the
current frame is spoiled and its supply abandoned (R80, R158); one made dead at the blade is spoiled so without a loss
(log 38). -/
def imageFailure (frame : Nat) (cause : LossCause) (s : State) : State :=
  match committedHead s with
  | some f =>
    if f.number = frame then
      let s := removeFrames (fun x => x.number == frame) false s
      match f.ref with
      | some r => accountLoss ⟨f, r, cause, .queue, none⟩ s
      | none => s
    else abandonSupply frame (spoilOnWeb frame cause none s)
  | none => abandonSupply frame (spoilOnWeb frame cause none s)

/-- A response matched to an OUTSTANDING tag with a slot is acted on by its status (R78 to R80). -/
def actOnData (i : Nat) (info : FetchInfo) (msg : DataMsg) (s : State) : State :=
  match msg.status with
  | 0 => fillSlot i msg.pixels s
  | 1 => untagSlot i s
  | 2 => imageFailure info.frame .imageMissing (setSlot i .empty s)
  | _ => imageFailure info.frame .rowRange (setSlot i .empty s)

/-- A response is malformed for a fetch: an unknown status, or OK with a pixel count other than the out width; also
OK with pixel bytes that are not that many pixels (R77; the last: log 15). -/
def DataMsg.malformed (msg : DataMsg) (info : FetchInfo) : Bool :=
  decide (3 < msg.status) || (msg.status == 0 && (msg.count != info.outWidth || !msg.complete))

/-- A FETCH that still waits for a tag that is freed is withdrawn: FETCH frames wait for OUTSTANDING tags only, one for
each (R181; log 29). -/
def withdrawFetch (t : Nat) (s : State) : State :=
  s.setLnk { s.lnk with imageWaiting := s.lnk.imageWaiting.filter fun f => f.tag != t }

/-- A response names the fetch of a tag (R77). -/
def DataMsg.answers (msg : DataMsg) (info : FetchInfo) : Bool :=
  msg.imageId == info.imageId && msg.row == info.row

/-- IFU takes a DATA response by its tag; the first case that applies gives the outcome (R77). -/
def takeData (tag : Nat) (body : List Byte) (s : State) : State :=
  let msg := readData body
  match s.ifu.tags[tag]? with
  | none => strayData tag .unknownTag msg s
  | some .free => strayData tag .freeTag msg s
  | some (.outstanding info slot _) =>
    match msg with
    | none => strayData tag .malformed none s
    | some m =>
      if !m.answers info then strayData tag .mismatch msg s
      else if m.malformed info then strayData tag .malformed msg s
      else
        let s := oweWindow (withdrawFetch tag (setTag tag .free s))
        match slot with
        | none => s
        | some i => actOnData i info m s
  | some (.expired info _) =>
    match msg with
    | none => strayData tag .malformed none s
    | some m =>
      if !m.answers info then strayData tag .mismatch msg s
      else if m.malformed info then strayData tag .malformed msg s
      else oweWindow (setTag tag .free s)

/-! ### Timeouts and lines due (R81, R82, R75, R76) -/

/-- A fetch timer runs out: the tag is EXPIRED with a quarantine of four times the timeout in force, and gives up its
slot (R81). A tag whose timer does not run has no expiry. -/
def expireTag (t : Nat) (s : State) : State :=
  match s.ifu.tags[t]? with
  | some (.outstanding info slot (some _)) =>
    let s := setTag t (.expired info (4 * s.set.settings.fetchTimeout)) s
    let s := s.setIfu { s.ifu with expiries := s.ifu.expiries + 1 }
    oweWindow (match slot with
      | some i => untagSlot i s
      | none => s)
  | _ => s

/-- A quarantine timer runs out: the tag is FREE (R82). -/
def endQuarantine (t : Nat) (s : State) : State :=
  match s.ifu.tags[t]? with
  | some (.expired _ _) => oweWindow (setTag t .free s)
  | _ => s

/-- A slot after print line `k` of frame `n` was taken: EMPTY when it was its last line (R75). -/
def LineSlot.take (n k : Nat) (x : LineSlot) : LineSlot :=
  match x with
  | .empty => .empty
  | .awaited _ _ _ _ _ => x
  | .filled f _ last _ _ => if f = n ∧ k = last then .empty else x

/-- The pixels of the FILLED slot that serves line `k` of frame `n`. -/
def linePixels (n k : Nat) : List LineSlot → Option (List (RGB Byte))
  | [] => none
  | .empty :: xs => linePixels n k xs
  | .awaited _ _ _ _ _ :: xs => linePixels n k xs
  | .filled f first last _ pixels :: xs =>
    if f = n ∧ first ≤ k ∧ k ≤ last then some pixels else linePixels n k xs

/-- The current frame moves on to line k + 1; the event for line Lf − 1 ends its time as current frame (R75), and nothing of
the line store is its own any longer (R69). -/
def advanceCurrent (k : Nat) (c : Current) (s : State) : State :=
  if k + 1 < c.lf then s.setIfu { s.ifu with current := some { c with next := k + 1 } }
  else
    let s := releaseFrame c.frame s
    s.setIfu { s.ifu with current := none }

/-- The line-due event for print line `k` (R75, R76). Without a current frame its supply is abandoned and the line is
dark (R73). -/
def lineDue (k : Nat) (s : State) : State :=
  match s.ifu.current with
  | none => drive (.headLine k .dark) s
  | some c =>
    match c.job with
    | .strip => oweWindow (advanceCurrent k c (drive (.headLine k .patch) s))
    | .print _ =>
      match linePixels c.frame k s.ifu.slots with
      | some pixels =>
        let s := drive (.headLine k (.row pixels)) s
        let s := s.setIfu { s.ifu with slots := s.ifu.slots.map (LineSlot.take c.frame k) }
        oweWindow (advanceCurrent k c s)
      | none =>
        drive (.headLine k .dark) (abandonSupply c.frame (spoilOnWeb c.frame .missingLine (some k) s))

end Sys2Proof.Machine
end

