-- ==== Sys2Proof/Machine/Settle.lean ====
section
/-!
DEFINITION. The end of an event: the tests it has called for are made until none is left (log 3), and the idle timer
follows whether the part is idle (R188).
-/
namespace Sys2Proof.Machine

/-! ### The tests an event calls for -/

/-- SCH's changeover ask test (R40). -/
def askTest (s : State) : State :=
  match askDue s with
  | some t => askChangeover t s
  | none => s

/-- The next test that is due, made: the pass (R30), the ask test (R40), the run test (R99, R100), the window (R71), the
flush arming test (R104). None when none is due. -/
def settleOne (s : State) : Option State :=
  if s.due.pass then some (selectionPass (s.setDue { s.due with pass := false }))
  else if s.due.ask then some (askTest (s.setDue { s.due with ask := false }))
  else if s.due.run then some (runTest (s.setDue { s.due with run := false }))
  else if s.due.window then some (ifuService (s.setDue { s.due with window := false }))
  else if s.due.flush then some (flushArmTest (s.setDue { s.due with flush := false }))
  else none

/-- The tests are made until none is due. -/
def settle : Nat → State → State
  | 0, s => s
  | fuel + 1, s =>
    match settleOne s with
    | some s' => settle fuel s'
    | none => s

/-- How many tests one event can call for: each of the two magazines can become EMPTY once, each ask can be made and
dropped once, and each of these calls for at most five tests. -/
def settleFuel : Nat := 64

/-! ### The idle timer (R188) -/

/-- An order that keeps the part from being idle (R22, R188). -/
def OrderState.busy : OrderState → Bool
  | .accepted => true
  | .active => true
  | .failing => true
  | .complete => false
  | .failed => false

/-- A slot holds an order that keeps the part from being idle. -/
def slotBusy : Option Order → Bool
  | some o => o.state.busy
  | none => false

/-- The part is idle (R188). -/
def partIdle (s : State) : Bool :=
  !s.ort.slots.any slotBusy && s.sch.queue.isEmpty && s.web.map.isEmpty && s.srt.transit.isEmpty &&
    !s.web.feederCommanded && s.set.settings.idleTimer != 0

/-- What the idle timer holds: it runs in ACTIVE while the part is idle, from the setting in force when it started
(R188). -/
def idleTimerNow (s : State) : Option Nat :=
  if s.lnk.power = .active ∧ partIdle s then
    match s.lnk.idleTimer with
    | some n => some n
    | none => some s.set.settings.idleTimer
  else none

/-- The idle timer follows the part (R188). -/
def idleService (s : State) : State := s.setLnk { s.lnk with idleTimer := idleTimerNow s }

/-- The end of an event: the tests it called for, then the idle timer. -/
def quiesce (s : State) : State := idleService ((settle settleFuel s).setDue Due.none)

end Sys2Proof.Machine
end

