-- ==== Sys2Proof/Machine/OrderRequests.lean ====
section
/-!
DEFINITION. The requests ORT owns: ORDER_SUBMIT (R6 to R12), ORDER_QUERY (R18), ORDER_CANCEL (R20), ORDER_PRIORITY
(R19), ORDER_COLLECT (R21). An owner answers with the part as the request leaves it and the reply body (R174).
-/
namespace Sys2Proof.Machine

/-- A reply of a status alone that changes nothing (R174, R175). -/
def refuse (status : Nat) (s : State) : State × List Byte := (s, le1 status)

/-- OK with the status byte alone (R183). -/
def ok (s : State) : State × List Byte := (s, le1 stOK)

/-! ### ORDER_SUBMIT (R6 to R12) -/

/-- A crop that does not lie inside the image (R8). -/
def cropFault (width height : Nat) : Option Crop → Bool
  | none => false
  | some c => c.w == 0 || c.h == 0 || decide (width < c.x0 + c.w) || decide (height < c.y0 + c.h)

/-- A submitted line is at fault (R8). -/
def SubLine.atFault (s : State) (l : SubLine) : Bool :=
  l.copies == 0 || decide (99 < l.copies) || l.width == 0 || l.height == 0 ||
    (match Surface.ofCode l.surface with
      | none => true
      | some surface =>
        decide (15 < l.size) || !(s.exu.sizes.getD l.size SizeEntry.unset).enabled ||
          !(s.prc.prices.getD (priceIndex l.size surface) PriceEntry.unset).enabled) ||
    cropFault l.width l.height l.crop

/-- The index of the first line at fault, counted from `i`. -/
def firstFault (s : State) : Nat → List SubLine → Option Nat
  | _, [] => none
  | i, l :: ls => if l.atFault s then some i else firstFault s (i + 1) ls

/-- The RANGE check: the order's own fields first, with line index 0, then the lines from 1 upward (R8). -/
def submissionFault (s : State) (sub : Submission) : Option Nat :=
  if sub.number = 0 ∨ 999999 < sub.number ∨ 7 < sub.source ∨ 15 < sub.priority ∨
      sub.lines.length = 0 ∨ 8 < sub.lines.length then some 0
  else firstFault s 1 sub.lines

/-- The clamp of density and corrections to −8..+8 (R10). -/
def clampEight (x : Int) : Int := if x < -8 then -8 else if 8 < x then 8 else x

/-- A line record as ORT stores it at acceptance; its unit price is PRC's to capture (R3, R10, R11). -/
def SubLine.record (l : SubLine) : Line where
  imageId := l.imageId
  width := l.width
  height := l.height
  crop := l.crop
  size := l.size
  surface := (Surface.ofCode l.surface).getD .gloss
  n := l.copies
  density := clampEight l.density
  cyan := clampEight l.cyan
  magenta := clampEight l.magenta
  yellow := clampEight l.yellow
  price := 0
  d := 0
  f := 0
  r := 0
  failed := none
  paperWait := false

/-- Some value of a line is clamped (R10). -/
def SubLine.clamped (l : SubLine) : Bool :=
  clampEight l.density != l.density || clampEight l.cyan != l.cyan || clampEight l.magenta != l.magenta ||
    clampEight l.yellow != l.yellow

/-- The order record at acceptance with its unit prices, terms and quote (R2, R10, R11, R149 to R152). -/
def acceptedOrder (s : State) (sub : Submission) : Order :=
  let o : Order := {
    number := sub.number
    subTag := sub.subTag
    source := sub.source
    priority := sub.priority
    express := sub.express
    discount := min sub.discount 50
    seq := s.ort.seq + 1
    state := .accepted
    lines := capturePrices s.prc.prices (sub.lines.map SubLine.record)
    bins := []
    overflowUsed := false
    quote := 0
    settled := none
    correctionsClamped := sub.lines.any SubLine.clamped
    discountClamped := decide (50 < sub.discount)
    priceCapped := false
    binEmptiedEarly := false
    terms := ⟨s.set.settings.surcharge, s.set.settings.roundingUnit⟩ }
  o.withQuote

/-- Slot, intake sequence, quote and flags, after OK and ALREADY (R183). -/
def acceptedBody (slot : Nat) (o : Order) : List Byte := le1 slot ++ le4 o.seq ++ le4 o.quote ++ le1 o.submitFlags

/-- ORT stores an accepted order in its slot and counts it (R11, R12); the acceptance calls for a pass (R30). -/
def acceptOrder (slot : Nat) (o : Order) (s : State) : State :=
  owePass (s.setOrt ⟨s.ort.slots.set slot (some o), o.seq⟩)

/-- ORDER_SUBMIT: the checks in their order, then the acceptance (R6 to R12). -/
def orderSubmit (body : List Byte) (s : State) : State × List Byte :=
  match readSubmission body with
  | none => refuse stBadFormat s
  | some sub =>
    match findOrder s.ort.slots sub.number with
    | some (slot, o) =>
      if o.subTag = sub.subTag then (s, le1 stAlready ++ acceptedBody slot o)
      else (s, le1 stDuplicate ++ le1 slot)
    | none =>
      match submissionFault s sub with
      | some i => (s, le1 stRange ++ le1 i)
      | none =>
        match freeSlot s.ort.slots with
        | none => refuse stFull s
        | some slot =>
          let o := acceptedOrder s sub
          (acceptOrder slot o s, le1 stOK ++ acceptedBody slot o)

/-! ### ORDER_QUERY (R18) -/

/-- The crop fields of a line, zero when absent (R183). -/
def cropReply : Option Crop → List Byte
  | none => le1 0 ++ le2 0 ++ le2 0 ++ le2 0 ++ le2 0
  | some c => le1 1 ++ le2 c.x0 ++ le2 c.y0 ++ le2 c.w ++ le2 c.h

/-- The 31 bytes of a line in the ORDER_QUERY reply (R183). -/
def Line.reply (l : Line) : List Byte :=
  le4 l.imageId ++ le2 l.width ++ le2 l.height ++ cropReply l.crop ++
    le1 l.size ++ le1 l.surface.code ++ le1 l.n ++
    le1s l.density ++ le1s l.cyan ++ le1s l.magenta ++ le1s l.yellow ++
    le2 l.price ++ le1 l.d ++ le1 l.f ++ le1 l.r ++ le1 l.unscheduled ++ le1 (failedCode l.failed)

/-- The lines of the ORDER_QUERY reply. -/
def linesReply : List Line → List Byte
  | [] => []
  | l :: ls => l.reply ++ linesReply ls

/-- The bin entry of the ORDER_QUERY reply: the bin at a place of the list, 0xFF when unused (R183). -/
def binEntry (bins : List Nat) (i : Nat) : List Byte := indexField bins[i]?

/-- The ORDER_QUERY reply after the status byte (R18, R183). -/
def Order.reply (slot : Nat) (o : Order) : List Byte :=
  le1 slot ++ le4 o.number ++ le2 o.subTag ++
    le1 o.source ++ le1 o.priority ++ le1 (yesNo o.express) ++ le1 o.discount ++
    le4 o.seq ++ le1 o.state.code ++ le1 o.queryFlags ++ le4 o.quote ++ le4 (o.settled.getD 0xFFFFFFFF) ++
    le1 o.terms.surcharge ++ le1 o.terms.roundingUnit ++
    le1 o.bins.length ++ binEntry o.bins 0 ++ binEntry o.bins 1 ++ binEntry o.bins 2 ++ binEntry o.bins 3 ++
    le1 o.lines.length ++ linesReply o.lines

/-- ORDER_QUERY (R17, R18). -/
def orderQuery (body : List Byte) (s : State) : State × List Byte :=
  match findOrder s.ort.slots (field body 0 4) with
  | none => refuse stNotFound s
  | some (slot, o) => (s, le1 stOK ++ o.reply slot)

/-! ### ORDER_CANCEL (R20, R136) -/

/-- An order in COMPLETE or FAILED. -/
def OrderState.ended : OrderState → Bool
  | .complete => true
  | .failed => true
  | .accepted => false
  | .active => false
  | .failing => false

/-- How many frames a cancel makes dead. -/
def liveOnPath (number : Nat) (s : State) : Nat :=
  (s.web.map.filter fun e => e.frame.liveOf number).length +
    (s.srt.transit.filter fun p => p.frame.liveOf number).length

/-- A frame of the order made dead. -/
def Frame.killOf (number : Nat) (f : Frame) : Frame := if f.liveOf number then { f with live := false } else f

/-- WEB makes every frame of the order on the web map dead, and IFU abandons the supply of the current frame when it is
one of them (R20, R98, R73). -/
def killOnWeb (number : Nat) (s : State) : State :=
  let doomed := s.web.map.filter fun e => e.frame.liveOf number
  let s := s.setWeb { s.web with map := s.web.map.map fun e => { e with frame := e.frame.killOf number } }
  doomed.foldl (fun s e => abandonSupply e.frame.number s) s

/-- SRT makes every piece of the order in the transit queue dead (R136). -/
def killInTransit (number : Nat) (s : State) : State :=
  s.setSrt { s.srt with transit := s.srt.transit.map fun p => { p with frame := p.frame.killOf number } }

/-- ORT frees a slot, with PRC's terms and SCH's marks (R1, R149, R41); this calls for a pass (R30). -/
def freeOrder (slot : Nat) (s : State) : State := owePass (s.setOrder slot none)

/-- The steps of a cancel (R20). -/
def cancelOrder (slot : Nat) (o : Order) (s : State) : State :=
  let s := removeFrames (Frame.ofOrder o.number) false s
  let s := killInTransit o.number (killOnWeb o.number s)
  freeOrder slot (releaseBins o.bins s)

/-- ORDER_CANCEL (R17, R20). -/
def orderCancel (body : List Byte) (s : State) : State × List Byte :=
  match findOrder s.ort.slots (field body 0 4) with
  | none => refuse stNotFound s
  | some (slot, o) =>
    if o.state.ended then refuse stRefusedState s
    else
      let removed := (s.sch.queue.filter (Frame.ofOrder o.number)).length
      (cancelOrder slot o s, le1 stOK ++ le1 removed ++ le1 (liveOnPath o.number s))

/-! ### ORDER_PRIORITY (R19, R37, R38) -/

/-- The effect of a changed priority on the order's queued frames; a pass follows (R19, R30). -/
def applyPriority (slot : Nat) (o : Order) (p : Nat) (s : State) : State :=
  let s := s.setOrder slot (some { o with priority := p })
  owePass (if p = 0 then removeFrames (Frame.ofOrder o.number) true s else replaceFrames o.number s)

/-- ORDER_PRIORITY (R17, R19). -/
def orderPriority (body : List Byte) (s : State) : State × List Byte :=
  let p := field body 4 1
  match findOrder s.ort.slots (field body 0 4) with
  | none => refuse stNotFound s
  | some (slot, o) =>
    if !o.state.schedulable then refuse stRefusedState s
    else if 15 < p then refuse stRange s
    else if p = o.priority then ok s
    else ok (applyPriority slot o p s)

/-! ### ORDER_COLLECT (R21) -/

/-- The outcome field: COMPLETE 0, FAILED 1 (R183). -/
def OrderState.outcome : OrderState → Nat
  | .failed => 1
  | .complete => 0
  | .accepted => 0
  | .active => 0
  | .failing => 0

/-- ORDER_COLLECT (R17, R21). -/
def orderCollect (body : List Byte) (s : State) : State × List Byte :=
  match findOrder s.ort.slots (field body 0 4) with
  | none => refuse stNotFound s
  | some (slot, o) =>
    if o.state.ended then
      (freeOrder slot (releaseBins o.bins s), le1 stOK ++ le1 o.state.outcome ++ le4 (o.settled.getD 0))
    else refuse stRefusedState s

end Sys2Proof.Machine
end

