-- ==== Sys2Proof/Machine/TableRequests.lean ====
section
/-!
DEFINITION. The requests that write and read the tables: sizes (R45), profiles (R46), ladder (R47), prices (R145 to
R147), routing windows (R130). A yes/no byte other than 0 and 1 is answered RANGE (log 30).
-/
namespace Sys2Proof.Machine

/-- The eight paper widths (R44, R85). -/
def paperWidth (w : Nat) : Bool := [89, 102, 127, 152, 203, 210, 254, 305].contains w

/-- A yes/no field; none for a value that is neither (R183, log 30). -/
def readYesNo : Nat → Option Bool
  | 0 => some false
  | 1 => some true
  | _ => none

/-- Some line of some occupied order satisfies a test (R45, R146). -/
def anyLine (p : Line → Bool) (s : State) : Bool :=
  s.ort.slots.any fun x =>
    match x with
    | some o => o.lines.any p
    | none => false

/-! ### The size table (R45) -/

/-- A size entry whose fields are in range (R45). -/
def SizeEntry.inRange (e : SizeEntry) : Bool :=
  paperWidth e.width && decide (400 ≤ e.lf) && decide (e.lf ≤ 6000) && decide (e.gap ≤ 200) &&
    decide (-256 ≤ e.offset) && decide (e.offset ≤ 255)

/-- The entry a SIZE_WRITE body carries; none when it is out of range (R45, R183). -/
def readSize (body : List Byte) : Option SizeEntry :=
  match readYesNo (field body 1 1) with
  | none => none
  | some enabled =>
    let e : SizeEntry := ⟨enabled, field body 2 2, field body 4 2, field body 6 2, signed2 body 8⟩
    if e.inRange then some e else none

/-- The write would disable an enabled entry that a line of an occupied order names (R45). -/
def sizeBusy (code : Nat) (e : SizeEntry) (s : State) : Bool :=
  (s.exu.sizes.getD code SizeEntry.unset).enabled && !e.enabled && anyLine (fun l => l.size == code) s

/-- SIZE_WRITE (R45); the size table is written, so a pass follows (R30), and the head may now be another (R36). -/
def sizeWrite (body : List Byte) (s : State) : State × List Byte :=
  let code := field body 0 1
  match (if code ≤ 15 then readSize body else none) with
  | none => refuse stRange s
  | some e =>
    if sizeBusy code e s then refuse stBusy s
    else ok (owePass (s.setExu { s.exu with sizes := s.exu.sizes.set code e }))

/-- The fields of a size entry as SIZE_WRITE carries them (R183). -/
def SizeEntry.bytes (code : Nat) (e : SizeEntry) : List Byte :=
  le1 code ++ le1 (yesNo e.enabled) ++ le2 e.width ++ le2 e.lf ++ le2 e.gap ++ le2s e.offset

/-- SIZE_READ (R45). -/
def sizeRead (body : List Byte) (s : State) : State × List Byte :=
  let code := field body 0 1
  if code ≤ 15 then (s, le1 stOK ++ (s.exu.sizes.getD code SizeEntry.unset).bytes code) else refuse stRange s

/-! ### The paper profiles (R46) -/

/-- PROFILE_WRITE (R46). -/
def profileWrite (body : List Byte) (s : State) : State × List Byte :=
  let i := field body 0 1
  let p : RGB Nat := ⟨field body 1 2, field body 3 2, field body 5 2⟩
  if i ≤ 7 ∧ p.all (fun b => decide (b ≤ 4095)) then
    ok (s.setExu { s.exu with profiles := s.exu.profiles.set i p })
  else refuse stRange s

/-- PROFILE_READ (R46). -/
def profileRead (body : List Byte) (s : State) : State × List Byte :=
  let i := field body 0 1
  if i ≤ 7 then
    let p := s.exu.profiles.getD i ⟨0, 0, 0⟩
    (s, le1 stOK ++ (le1 i ++ le2 p.r ++ le2 p.g ++ le2 p.b))
  else refuse stRange s

/-! ### The calibration ladder (R47) -/

/-- No threshold is below the one before it (R47). -/
def nonDecreasing : List Nat → Bool
  | a :: b :: rest => decide (a ≤ b) && nonDecreasing (b :: rest)
  | _ => true

/-- The ladder a LADDER_WRITE body carries (R183). -/
def readLadder (body : List Byte) : Ladder where
  thresholds := (List.range 16).map fun i => field body (2 * i) 2
  steps := (List.range 16).map fun i => signed1 body (32 + i)

/-- A ladder in range: thresholds 0..1023 in non-decreasing order; each step is a signed byte (R47). -/
def Ladder.inRange (l : Ladder) : Bool :=
  l.thresholds.all (fun t => decide (t ≤ 1023)) && nonDecreasing l.thresholds

/-- LADDER_WRITE (R47). -/
def ladderWrite (body : List Byte) (s : State) : State × List Byte :=
  let l := readLadder body
  if l.inRange then ok (s.setExu { s.exu with ladder := l }) else refuse stRange s

/-- The 32 values of a ladder as LADDER_WRITE carries them (R183). -/
def Ladder.bytes (l : Ladder) : List Byte := l.thresholds.flatMap le2 ++ l.steps.flatMap le1s

/-- LADDER_READ (R47). -/
def ladderRead (_body : List Byte) (s : State) : State × List Byte := (s, le1 stOK ++ s.exu.ladder.bytes)

/-! ### The price table (R145 to R147) -/

/-- A threshold is 0 or 2..999 (R143, R145). -/
def thresholdOk (t : Nat) : Bool := t == 0 || (decide (2 ≤ t) && decide (t ≤ 999))

/-- The enabled tiers come first and their thresholds rise strictly (R145). -/
def tiersOk (a b c : Nat) : Bool :=
  (b == 0 || (a != 0 && decide (a < b))) && (c == 0 || (b != 0 && decide (b < c)))

/-- The tiers of an entry are in range (R145). -/
def PriceEntry.inRange (e : PriceEntry) : Bool :=
  thresholdOk e.tier2.threshold && thresholdOk e.tier3.threshold && thresholdOk e.tier4.threshold &&
    tiersOk e.tier2.threshold e.tier3.threshold e.tier4.threshold

/-- The entry a PRICE_WRITE body carries; none when it is out of range (R145, R183). -/
def readPrice (body : List Byte) : Option PriceEntry :=
  match readYesNo (field body 2 1) with
  | none => none
  | some enabled =>
    let e : PriceEntry := ⟨enabled, field body 3 2, ⟨field body 5 2, field body 7 2⟩,
      ⟨field body 9 2, field body 11 2⟩, ⟨field body 13 2, field body 15 2⟩⟩
    if e.inRange then some e else none

/-- The size code and surface a PRICE request names; none when out of range (R145, R147). -/
def readPriceKey (body : List Byte) : Option (Nat × Surface) :=
  let code := field body 0 1
  if code ≤ 15 then (Surface.ofCode (field body 1 1)).map fun u => (code, u) else none

/-- The write would disable an entry in use (R146). -/
def priceBusy (code : Nat) (surface : Surface) (e : PriceEntry) (s : State) : Bool :=
  (s.prc.prices.getD (priceIndex code surface) PriceEntry.unset).enabled && !e.enabled &&
    anyLine (fun l => l.size == code && l.surface == surface) s

/-- PRICE_WRITE (R145, R146). -/
def priceWrite (body : List Byte) (s : State) : State × List Byte :=
  match readPriceKey body, readPrice body with
  | some (code, surface), some e =>
    if priceBusy code surface e s then refuse stBusy s
    else ok (s.setPrc ⟨s.prc.prices.set (priceIndex code surface) e⟩)
  | _, _ => refuse stRange s

/-- A tier as PRICE_WRITE carries it. -/
def Tier.bytes (t : Tier) : List Byte := le2 t.threshold ++ le2 t.price

/-- The fields of a price entry as PRICE_WRITE carries them (R183). -/
def PriceEntry.bytes (code : Nat) (surface : Surface) (e : PriceEntry) : List Byte :=
  le1 code ++ le1 surface.code ++ le1 (yesNo e.enabled) ++ le2 e.price1 ++ e.tier2.bytes ++ e.tier3.bytes ++
    e.tier4.bytes

/-- PRICE_READ (R147). -/
def priceRead (body : List Byte) (s : State) : State × List Byte :=
  match readPriceKey body with
  | some (code, surface) =>
    (s, le1 stOK ++ (s.prc.prices.getD (priceIndex code surface) PriceEntry.unset).bytes code surface)
  | none => refuse stRange s

/-! ### The routing windows (R130) -/

/-- A window whose fields are in range (R130). -/
def Window.inRange (w : Window) : Bool :=
  decide (w.base ≤ 999999) && decide (w.k ≤ 19) && decide (w.firstBin ≤ 23) && decide (1 ≤ w.binCount) &&
    decide (w.binCount ≤ 24) && decide (w.firstBin + w.binCount ≤ 24)

/-- The window a WINDOW_WRITE body carries; none when it is out of range (R130, R183). -/
def readWindow (body : List Byte) : Option Window :=
  match readYesNo (field body 1 1) with
  | none => none
  | some enabled =>
    let w : Window := ⟨enabled, field body 2 4, field body 6 1, field body 7 1, field body 8 1,
      BitVec.ofNat 8 (field body 9 1)⟩
    if w.inRange then some w else none

/-- WINDOW_WRITE (R130); SRT reports a bin change and SCH makes a pass. -/
def windowWrite (body : List Byte) (s : State) : State × List Byte :=
  let i := field body 0 1
  match (if i ≤ 7 then readWindow body else none) with
  | none => refuse stRange s
  | some w => ok (owePass (s.setSrt { s.srt with windows := s.srt.windows.set i w }))

/-- The fields of a window as WINDOW_WRITE carries them (R183). -/
def Window.bytes (i : Nat) (w : Window) : List Byte :=
  le1 i ++ le1 (yesNo w.enabled) ++ le4 w.base ++ le1 w.k ++ le1 w.firstBin ++ le1 w.binCount ++ le1 w.mask.toNat

/-- WINDOW_READ (R130). -/
def windowRead (body : List Byte) (s : State) : State × List Byte :=
  let i := field body 0 1
  if i ≤ 7 then (s, le1 stOK ++ (s.srt.windows.getD i Window.unset).bytes i) else refuse stRange s

end Sys2Proof.Machine
end

