-- ==== Sys2Proof/Machine/SettingRequests.lean ====
section
/-!
DEFINITION. The requests SET owns: SETTING_WRITE and SETTING_READ (R184, R185), SETTINGS_SAVE (R186).
-/
namespace Sys2Proof.Machine

/-! ### The settings by their identifiers (R184) -/

/-- The live value of a setting; none for an identifier not in the table (R184). -/
def Settings.get (x : Settings) (id : Nat) : Option Nat :=
  match id with
  | 0x01 => some x.calibrationRequired
  | 0x02 => some x.calibrateOnLoad
  | 0x03 => some x.changeoverPriority
  | 0x04 => some x.densityStep
  | 0x05 => some x.colourStep
  | 0x06 => some x.linePeriod
  | 0x07 => some x.readAhead
  | 0x08 => some x.fetchTimeout
  | 0x09 => some x.pathFixed
  | 0x0A => some x.loopMax
  | 0x0B => some x.lowMark
  | 0x0C => some x.flushDelay
  | 0x0D => some x.markWindow
  | 0x0E => some x.markOffset
  | 0x0F => some x.binCapacity
  | 0x10 => some x.overflowCapacity
  | 0x11 => some x.rejectCapacity
  | 0x12 => some x.surcharge
  | 0x13 => some x.roundingUnit
  | 0x14 => some x.remakeLimit
  | 0x15 => some x.idleTimer
  | _ => if 0x40 ≤ id ∧ id ≤ 0x51 then some (x.noticePriorities.getD (id - 0x40) 0) else none

/-- A value of a range. -/
def within (lo hi v : Nat) : Bool := decide (lo ≤ v) && decide (v ≤ hi)

/-- Whether a value is one of a setting's values; none for an identifier not in the table (R184). -/
def settingAllows (id v : Nat) : Option Bool :=
  match id with
  | 0x01 => some (within 0 1 v)
  | 0x02 => some (within 0 1 v)
  | 0x03 => some (within 1 15 v)
  | 0x04 => some (within 1 63 v)
  | 0x05 => some (within 1 63 v)
  | 0x06 => some (within 2000 65535 v)
  | 0x07 => some (v == 8 || v == 16 || v == 32 || v == 64)
  | 0x08 => some (within 5 255 v)
  | 0x09 => some (within 1000 20000 v)
  | 0x0A => some (within 500 10000 v)
  | 0x0B => some (within 0 1000000 v)
  | 0x0C => some (within 0 600 v)
  | 0x0D => some (within 1 100 v)
  | 0x0E => some (within 50 2000 v)
  | 0x0F => some (within 10 250 v)
  | 0x10 => some (within 10 250 v)
  | 0x11 => some (within 10 250 v)
  | 0x12 => some (within 0 100 v)
  | 0x13 => some (v == 1 || v == 5 || v == 10 || v == 50 || v == 100)
  | 0x14 => some (within 0 7 v)
  | 0x15 => some (within 0 240 v)
  | _ => if 0x40 ≤ id ∧ id ≤ 0x51 then some (within 0 15 v) else none

/-- The settings with one replaced. -/
def Settings.put (x : Settings) (id v : Nat) : Settings :=
  match id with
  | 0x01 => { x with calibrationRequired := v }
  | 0x02 => { x with calibrateOnLoad := v }
  | 0x03 => { x with changeoverPriority := v }
  | 0x04 => { x with densityStep := v }
  | 0x05 => { x with colourStep := v }
  | 0x06 => { x with linePeriod := v }
  | 0x07 => { x with readAhead := v }
  | 0x08 => { x with fetchTimeout := v }
  | 0x09 => { x with pathFixed := v }
  | 0x0A => { x with loopMax := v }
  | 0x0B => { x with lowMark := v }
  | 0x0C => { x with flushDelay := v }
  | 0x0D => { x with markWindow := v }
  | 0x0E => { x with markOffset := v }
  | 0x0F => { x with binCapacity := v }
  | 0x10 => { x with overflowCapacity := v }
  | 0x11 => { x with rejectCapacity := v }
  | 0x12 => { x with surcharge := v }
  | 0x13 => { x with roundingUnit := v }
  | 0x14 => { x with remakeLimit := v }
  | 0x15 => { x with idleTimer := v }
  | _ => { x with noticePriorities := x.noticePriorities.set (id - 0x40) v }

/-! ### SETTING_WRITE and SETTING_READ (R185) -/

/-- The web counts as threaded (R185). -/
def webThreaded (s : State) : Bool :=
  match s.web.state with
  | .threading => true
  | .ready => true
  | .changeover => true
  | .fault => true
  | .clearing => s.web.feederCommanded
  | .unthreaded => false

/-- The three settings that describe the present web: path_fixed, loop_max, mark_offset (R185). -/
def threadedSetting (id : Nat) : Bool := id == 0x09 || id == 0x0A || id == 0x0E

/-- SRT refuses a capacity (R126). -/
def capacityBusy (id v : Nat) (s : State) : Bool :=
  match id with
  | 0x0F => binCapacityBusy s v
  | 0x10 => holdCapacityBusy s 24 v
  | 0x11 => holdCapacityBusy s 25 v
  | _ => false

/-- The live value is replaced. -/
def putSetting (id v : Nat) (s : State) : State :=
  s.setSet { s.set with settings := s.set.settings.put id v }

/-- What a write calls for beside the new value: a pass for "calibration required" and the changeover priority (R30),
the run test and the window for "calibration required" (R36, R99), the window for the read-ahead depth (R71), the flush
timer's disarming when a smaller mark window brings the newest flush end within F_in − path_fixed (R104), and the bins
brought into line for a capacity (R126). A new read-ahead depth makes no priming test (R72; log 37). -/
def settingEffect (id v : Nat) (s : State) : State :=
  match id with
  | 0x01 => oweMagazine s
  | 0x03 => owePass s
  | 0x07 => oweWindow s
  | 0x0D => if flushNeeded s then s else disarmFlush s
  | 0x0F => realignBins v s
  | 0x10 => realignHolding 24 v s
  | 0x11 => realignHolding 25 v s
  | _ => s

/-- SETTING_WRITE (R185). -/
def settingWrite (body : List Byte) (s : State) : State × List Byte :=
  let id := field body 0 1
  let v := field body 1 4
  match settingAllows id v with
  | some true =>
    if threadedSetting id && webThreaded s then refuse stRefusedState s
    else if capacityBusy id v s then refuse stBusy s
    else if s.set.settings.get id = some v then ok s
    else ok (settingEffect id v (putSetting id v s))
  | some false => refuse stRange s
  | none => refuse stRange s

/-- SETTING_READ (R185). -/
def settingRead (body : List Byte) (s : State) : State × List Byte :=
  let id := field body 0 1
  match s.set.settings.get id with
  | some v => (s, le1 stOK ++ (le1 id ++ le4 v))
  | none => refuse stRange s

/-! ### SETTINGS_SAVE (R186) -/

/-- The image to be saved, as it stands (R186). -/
def liveImage (s : State) : SettingsImage :=
  ⟨s.set.settings, s.exu.sizes, s.exu.profiles, s.exu.ladder, s.prc.prices, s.srt.windows⟩

/-- SETTINGS_SAVE: the image is copied and stage 1, the clearing of the marker, begins (R186, log 7). -/
def settingsSave (_body : List Byte) (s : State) : State × List Byte :=
  if s.set.save.isSome then refuse stBusy s
  else
    ok (drive .clearMarker (s.setSet { s.set with
      memory := { s.set.memory with marker := none }
      save := some ⟨liveImage s, 1⟩ }))

/-- The CRC-16 a format marker carries for an image (R186). -/
def imageMark (x : SettingsImage) : BitVec 16 := crc16 (Config.imageBytes x)

/-- The memory completes the stage being written (R186). With no save in progress the completion is discarded (log
42). -/
def saveStage (s : State) : State :=
  match s.set.save with
  | none => s
  | some job =>
    match job.stage with
    | 1 => drive .writeImage (s.setSet { s.set with save := some { job with stage := 2 } })
    | 2 => drive .writeMarker (s.setSet { s.set with
        memory := { s.set.memory with image := job.image }
        save := some { job with stage := 3 } })
    | _ => s.setSet { s.set with
        memory := ⟨some (imageMark job.image), s.set.memory.image⟩
        save := none
        outcome := .done }

/-- The memory reports a write fault: SET stops writing and the marker is left cleared (R186). With no save in progress
the report is discarded (log 42). -/
def saveFault (s : State) : State :=
  if s.set.save.isSome then
    s.setSet { s.set with memory := { s.set.memory with marker := none }, save := none, outcome := .failed }
  else s

/-- What SET loads at power-on: the stored image with a valid marker, otherwise the defaults (R187). -/
def loadImage (m : SettingsMemory) : SettingsImage :=
  if m.marker = some (imageMark m.image) then m.image else SettingsImage.default

end Sys2Proof.Machine
end

