-- ==== Sys2Proof/Machine/PaperRequests.lean ====
section
/-!
DEFINITION. The requests on paper, head and sorter: MAG_LOAD (R86), MAG_UNLOAD (R87), CALIBRATE (R63), HEAD_RESET
(R57), SORTER_RESUME (R139).
-/
namespace Sys2Proof.Machine

/-! ### MAG_LOAD (R86) -/

/-- A new roll as MAG_LOAD names it. -/
structure Roll where
  mag     : Mag
  width   : Nat
  surface : Surface
  length  : Nat
  profile : Nat
  deriving DecidableEq, Repr

/-- The roll a MAG_LOAD body carries; none when it is out of range (R86, R183). -/
def readRoll (pathFixed : Nat) (body : List Byte) : Option Roll :=
  match Mag.ofCode (field body 0 1), Surface.ofCode (field body 3 1) with
  | some m, some u =>
    let width := field body 1 2
    let length := field body 4 4
    let profile := field body 8 1
    if paperWidth width ∧ profile ≤ 7 ∧ pathFixed ≤ length then some ⟨m, width, u, length, profile⟩ else none
  | _, _ => none

/-- The active magazine may be reloaded: EMPTY, the web map empty, the web READY or CLEARING (R86). In FAULT it may not,
though R167 names a MAG_LOAD beside a path clearing as what a paper end in CLEARING calls for (log 46). -/
def reloadable (m : Mag) (s : State) : Bool :=
  (s.web.mag m).state == .empty && s.web.map.isEmpty && (s.web.state == .ready || s.web.state == .clearing)

/-- MAG_LOAD is refused by state (R86; log 46). -/
def loadRefused (m : Mag) (s : State) : Bool :=
  s.web.threading == some m || s.web.ask == some m || (s.web.active == some m && !reloadable m s)

/-- The record of a loaded roll (R86). -/
def Roll.record (x : Roll) : MagRecord where
  state := .calNeeded
  width := x.width
  surface := x.surface
  remaining := x.length
  profile := x.profile
  offsets := ⟨0, 0, 0⟩
  indices := ⟨none, none, none⟩
  lowReported := false

/-- Whether a load begins a threading (R86); in FAULT none does, since path clearing or RESET alone leave it (R95, log
46). -/
def loadThreads (m : Mag) (s : State) : Bool :=
  match s.web.active with
  | none => s.web.state == .unthreaded
  | some active => active == m && (s.web.state == .ready || (s.web.state == .clearing && !s.web.feederCommanded))

/-- The effect of an accepted MAG_LOAD (R86): the record, with MAG_LOW at once where it is due (R88), SCH's part (R38), then
the threading (R90). -/
def loadRoll (x : Roll) (s : State) : State :=
  let inactiveLoaded := s.web.active != some x.mag && (s.web.mag x.mag).state != .absent
  let s := lowMarkTest x.mag (s.setMag x.mag x.record)
  let s := oweMagazine (if inactiveLoaded then magazineUnusable x.mag s else s)
  if loadThreads x.mag s then commandThreading x.mag s else s

/-- MAG_LOAD (R86). -/
def magLoad (body : List Byte) (s : State) : State × List Byte :=
  match readRoll s.set.settings.pathFixed body with
  | none => refuse stRange s
  | some x => if loadRefused x.mag s then refuse stRefusedState s else ok (loadRoll x s)

/-! ### MAG_UNLOAD (R87) -/

/-- MAG_UNLOAD is refused by state (R87). -/
def unloadRefused (m : Mag) (s : State) : Bool :=
  s.web.active == some m || s.web.threading == some m || s.web.ask == some m

/-- The record of an unloaded position; width, surface and profile keep their last values (R87). -/
def MagRecord.unloaded (r : MagRecord) : MagRecord :=
  { r with
    state := .absent
    remaining := 0
    offsets := ⟨0, 0, 0⟩
    indices := ⟨none, none, none⟩
    lowReported := false }

/-- The effect of an accepted MAG_UNLOAD: the change of remaining to 0 with its low-mark test (R88, log 12), then the
record (R87), then SCH's part (R38). A MAG_LOW so comes before the ORDER_DONE of a FAILING order that the removals end (R16),
which no rule says (log 57). -/
def unload (m : Mag) (s : State) : State :=
  let s := if (s.web.mag m).remaining = 0 then s else setRemaining m 0 s
  oweMagazine (magazineUnusable m (s.setMag m (s.web.mag m).unloaded))

/-- MAG_UNLOAD (R87). -/
def magUnload (body : List Byte) (s : State) : State × List Byte :=
  match Mag.ofCode (field body 0 1) with
  | none => refuse stRange s
  | some m =>
    if unloadRefused m s then refuse stRefusedState s
    else if (s.web.mag m).state = .absent then ok s
    else ok (unload m s)

/-! ### CALIBRATE (R63) -/

/-- CALIBRATE is refused by state (R63). -/
def calibrateRefused (m : Mag) (s : State) : Bool :=
  s.web.active != some m || !(s.web.mag m).state.loaded || s.sch.changeover.isAsked

/-- CALIBRATE (R63). -/
def calibrate (body : List Byte) (s : State) : State × List Byte :=
  match Mag.ofCode (field body 0 1) with
  | none => refuse stRange s
  | some m =>
    if calibrateRefused m s then refuse stRefusedState s
    else
      match s.sch.mark m with
      | .awaiting => refuse stBusy s
      | .created _ => refuse stBusy s
      | .none => ok (owePass (s.setMark m .awaiting))

/-! ### HEAD_RESET (R57) -/

/-- HEAD_RESET (R57). The head is OFF only in standby, where no request is carried out. -/
def headReset (_body : List Byte) (s : State) : State × List Byte :=
  match s.exu.head with
  | .exposing => refuse stBusy s
  | .fault => ok (warmUp s)
  | .ready => ok (warmUp s)
  | .warming => ok (warmUp s)
  | .off => ok (warmUp s)

/-! ### SORTER_RESUME (R139) -/

/-- The jammed piece is removed, and the sorter leaves FAULT (R139). -/
def resumeSorter (s : State) : State := sorterRestart (if s.srt.jammed then headLeaves s else s)

/-- SORTER_RESUME (R139). -/
def sorterResume (_body : List Byte) (s : State) : State × List Byte :=
  match s.srt.state with
  | .fault => ok (resumeSorter s)
  | .run => refuse stRefusedState s
  | .hold => refuse stRefusedState s

end Sys2Proof.Machine
end

