-- ==== Sys2Proof/Machine/PathClear.lean ====
section
/-!
DEFINITION. Path clearing (R95, R142, R165 to R168): the request and the button share it; RESET shares the clearing of the
web.
-/
namespace Sys2Proof.Machine

/-! ### The clearing of the web (R95) -/

/-- The web stops: a run is ended early, a flush stopped, the timer disarmed, a threading abandoned (R95). -/
def stopWeb (s : State) : State :=
  let s := disarmFlush (stopFlush (endRunEarly s))
  s.setWeb { s.web with threading := none }

/-- The clearing source: the target of the held ask, otherwise the active magazine (R95). -/
def clearingSource (s : State) : Option Mag :=
  match s.web.ask with
  | some m => some m
  | none => s.web.active

/-- The emptied web goes to CLEARING and threads its source when it is available, or goes to UNTHREADED (R95). -/
def clearWeb (s : State) : State :=
  match clearingSource s with
  | none => setWebState .unthreaded s
  | some m =>
    let s := setWebState .clearing s
    if (s.web.mag m).state.loaded then commandThreading m s else s

/-! ### The accounting of what the clearing removes (R168) -/

/-- A strip leaves the paper path without an outcome: the mark that carries it returns to AWAITING, and a pass follows
(R34, R30; log 28). -/
def stripCleared (m : Mag) (frame : Nat) (s : State) : State :=
  if s.sch.mark m = .created frame then owePass (s.setMark m .awaiting) else s

/-- A frame removed by the clearing is accounted for (R168). `told` says that a strip's outcome is already reported. -/
def clearFrame (f : Frame) (held : HeldIn) (told : Bool) (s : State) : State :=
  match f.job with
  | .print r => if f.live then accountLoss ⟨f, r, .pathClear, held, none⟩ s else s
  | .strip => if told then s else stripCleared f.mag f.number s

/-- The frames of the web map are accounted for, oldest first (R168, log 18). -/
def clearEntries : List WebEntry → State → State
  | [], s => s
  | e :: es, s => clearEntries es (clearFrame e.frame .webMap false s)

/-- The pieces in transit are accounted for, head first; a reading still awaited will be discarded (R124, R168). -/
def clearPieces : List Piece → State → State
  | [], s => s
  | p :: ps, s => clearPieces ps (clearFrame p.frame .transit (p.reading == .taken) (noteDiscard p s))

/-- WEB empties the web map (R95, R168). -/
def emptyWebMap (s : State) : State :=
  let removed := s.web.map
  clearEntries removed (s.setWeb { s.web with map := [] })

/-- SRT empties the transit queue (R142, R168). -/
def emptyTransit (s : State) : State :=
  let removed := s.srt.transit
  clearPieces removed (s.setSrt { s.srt with transit := [] })

/-! ### The clearing (R166) -/

/-- A path-clear event (R166). R95 has the web map emptied before the web threads its source; that the transit queue is
accounted for before that threading too, and so before the MAG_EMPTY of a source found too short and the queued frames it gives
up, is the model's choice (log 52). -/
def pathClear (s : State) : State :=
  let s := stopWeb s
  let s := emptyTransit (emptyWebMap s)
  let s := sorterRestart (endDrop (cutClear s))
  freePlace (clearWeb s)

/-- The frames on the paper path. -/
def pathFrames (s : State) : List Frame :=
  s.web.map.map WebEntry.frame ++ s.srt.transit.map Piece.frame

/-- A live print. -/
def Frame.livePrint (f : Frame) : Bool := !f.isStrip && f.live

/-- A dead print. -/
def Frame.deadPrint (f : Frame) : Bool := !f.isStrip && !f.live

/-- PATH_CLEAR: the clearing, then the counts of what it removed and the web state after it (R165). A strip counts among
the strips alone, dead mark or not (log 40). -/
def pathClearRequest (_body : List Byte) (s : State) : State × List Byte :=
  let t := pathClear s
  let fs := pathFrames s
  (t, le1 stOK ++ (le1 (fs.filter Frame.livePrint).length ++ le1 (fs.filter Frame.deadPrint).length ++
    le1 (fs.filter Frame.isStrip).length ++ le1 t.web.state.code))

end Sys2Proof.Machine
end

