-- ==== Sys2Proof/Machine/Status.lean ====
section
/-!
DEFINITION. STATUS (R179): the parts of the reply in the order of its table, and what is cleared once it is built.
-/
namespace Sys2Proof.Machine

/-- How many elements satisfy a test. -/
def countWhere {α : Type} (p : α → Bool) (xs : List α) : Nat := (xs.filter p).length

/-! ### The parts (R179) -/

/-- LNK's part. The rule has the CRC and framing discard counts "for each link" and names no order of the links; the model
sends the Station link's two before the Image link's (log 53). -/
def statusLink (s : State) : List Byte :=
  le1 s.lnk.power.code ++ countField s.lnk.notices.length ++ le1 (yesNo s.lnk.overrun) ++
    bigCountField s.lnk.stationCrc ++ bigCountField s.lnk.stationFraming ++
    bigCountField s.lnk.imageCrc ++ bigCountField s.lnk.imageFraming ++ bigCountField s.lnk.rxOverruns

/-- The slots hold this many orders in a state. -/
def ordersIn (st : OrderState) (s : State) : Nat :=
  countWhere (fun x : Option Order =>
    match x with
    | some o => o.state == st
    | none => false) s.ort.slots

/-- ORT's part (R22). -/
def statusOrders (s : State) : List Byte :=
  countField (countWhere Option.isSome s.ort.slots) ++ countField (ordersIn .accepted s) ++
    countField (ordersIn .active s) ++ countField (ordersIn .complete s) ++ countField (ordersIn .failing s) ++
    countField (ordersIn .failed s)

/-- The target of changeover-pending. -/
def Changeover.target : Changeover → Option Mag
  | .clear => none
  | .pending m => some m
  | .asked m => some m

/-- SCH's part (R42). -/
def statusScheduling (s : State) : List Byte :=
  countField s.sch.queue.length ++ countField (countWhere (fun f => f.mag == .a) s.sch.queue) ++
    countField (countWhere (fun f => f.mag == .b) s.sch.queue) ++
    frameField (s.sch.queue.head?.map Frame.number) ++ le1 (yesNo s.sch.committed) ++
    le1 s.sch.changeover.code ++ magField s.sch.changeover.target ++
    le1 s.sch.markA.code ++ le1 s.sch.markB.code

/-- The frame of the run in progress. -/
def runFrame (s : State) : Option Frame :=
  match s.web.run with
  | some _ => s.web.newest.map WebEntry.frame
  | none => none

/-- EXU's part (R65). -/
def statusExposure (s : State) : List Byte :=
  let x := (runFrame s).bind Frame.exposure
  le1 s.exu.head.code ++ frameField ((runFrame s).map Frame.number) ++
    openField1 .speedClass (x.map fun e => e.speed.code) ++ openField1 .limited (x.map fun e => yesNo e.limited)

/-- A slot is AWAITED. -/
def LineSlot.isAwaited : LineSlot → Bool
  | .awaited _ _ _ _ _ => true
  | .empty => false
  | .filled _ _ _ _ _ => false

/-- A slot is FILLED. -/
def LineSlot.isFilled : LineSlot → Bool
  | .filled _ _ _ _ _ => true
  | .empty => false
  | .awaited _ _ _ _ _ => false

/-- A tag is OUTSTANDING. -/
def FetchTag.isOutstanding : FetchTag → Bool
  | .outstanding _ _ _ => true
  | .free => false
  | .expired _ _ => false

/-- A tag is EXPIRED. -/
def FetchTag.isExpired : FetchTag → Bool
  | .expired _ _ => true
  | .free => false
  | .outstanding _ _ _ => false

/-- An OUTSTANDING tag carries the discard mark. -/
def FetchTag.isDiscarded : FetchTag → Bool
  | .outstanding _ none _ => true
  | .outstanding _ (some _) _ => false
  | .free => false
  | .expired _ _ => false

/-- IFU's part (R83). -/
def statusFetch (s : State) : List Byte :=
  countField (countWhere LineSlot.isEmpty s.ifu.slots) ++ countField (countWhere LineSlot.isAwaited s.ifu.slots) ++
    countField (countWhere LineSlot.isFilled s.ifu.slots) ++
    countField (countWhere FetchTag.isFree s.ifu.tags) ++ countField (countWhere FetchTag.isOutstanding s.ifu.tags) ++
    countField (countWhere FetchTag.isExpired s.ifu.tags) ++ countField (countWhere FetchTag.isDiscarded s.ifu.tags) ++
    frameField (s.ifu.current.map Current.frame) ++ frameField ((committedHead s).map Frame.number) ++
    le1 (yesNo s.ifu.primed) ++ bigCountField s.ifu.expiries

/-- The loop; a negative value cannot be sent as a length, so it is open (R96, log 23). -/
def loopField (s : State) : List Byte := openField4 .loop (if 0 ≤ s.loop then some s.loop.toNat else none)

/-- The milliseconds left on the running flush timer: a free value that is at most the delay the timer was started with
(log 5). -/
def flushLeft (s : State) : Option Nat := s.web.flushTimer.map fun d => min (Config.flushTimeLeft s.free) (1000 * d)

/-- A magazine's fields (R106). -/
def statusMag (r : MagRecord) : List Byte :=
  le1 r.state.code ++ le2 r.width ++ le1 r.surface.code ++ le4 r.remaining ++ le1 r.profile ++
    le2s r.offsets.r ++ le2s r.offsets.g ++ le2s r.offsets.b ++
    indexField r.indices.r ++ indexField r.indices.g ++ indexField r.indices.b ++ le1 (yesNo r.lowReported)

/-- WEB's part (R106). -/
def statusWeb (s : State) : List Byte :=
  le1 s.web.state.code ++ magField s.web.active ++ magField s.web.threading ++ magField s.web.ask ++
    le4 s.web.fIn ++ le4 s.web.c ++ loopField s ++
    countField s.web.map.length ++ frameField (s.web.map.head?.map fun e => e.frame.number) ++
    frameField (s.web.newest.map fun e => e.frame.number) ++
    le1 (yesNo s.web.flushTimer.isSome) ++ openField4 .flushTime (flushLeft s) ++
    le1 (yesNo s.web.flush.isSome) ++ openField4 .coordinate s.web.flush ++
    statusMag s.web.magA ++ statusMag s.web.magB

/-- For FEEDING, whether the cutter waits at the cutter limit (R112, R122). -/
def waitingAtLimit (s : State) : Option Bool :=
  if s.cut.state = .feeding then some (decide (s.web.fIn ≤ s.web.c + s.set.settings.pathFixed)) else none

/-- CUT's part (R122). -/
def statusCutter (s : State) : List Byte :=
  let x := s.cut.nextCut
  let g := openGap s
  le1 s.cut.state.code ++ openField1 .waiting ((waitingAtLimit s).map yesNo) ++
    le1s s.cut.offset ++ countField s.cut.missCount ++
    openField1 .cutKind (x.map fun c => c.kind.code) ++ frameField (x.map NextCut.frame) ++
    openField4 .coordinate (x.map NextCut.nominal) ++ openField4 .coordinate (x.map fun c => c.target.toNat) ++
    countField s.cut.gaps.length ++ frameField (g.map GapRecord.frame) ++
    openField4 .coordinate (g.bind GapRecord.markCoord)

/-- The frame number of the jammed piece. -/
def jammedFrame (s : State) : Option Nat :=
  if s.srt.jammed then s.srt.transit.head?.map fun p => p.frame.number else none

/-- The fields of a piece (R140). -/
def statusPiece (p : Piece) : List Byte :=
  le2 p.frame.number ++ le1 p.frame.job.code ++ le1 (yesNo p.frame.live) ++ le1 p.reading.code ++ indexField p.routed

/-- The fields of an order bin (R140). -/
def statusBin (b : OrderBin) : List Byte :=
  le1 b.state.code ++ orderField b.owner ++ countField b.count ++ le1 (readingCode b.sensor.filtered)

/-- The fields of a holding bin; OPEN is 0 and FULL 1 (R140). -/
def statusHolding (b : HoldBin) : List Byte :=
  le1 (yesNo b.full) ++ countField b.count ++ le1 (readingCode b.sensor.filtered)

/-- SRT's part (R140). -/
def statusSorter (s : State) : List Byte :=
  le1 s.srt.state.code ++ frameField (jammedFrame s) ++
    countField s.srt.transit.length ++ s.srt.transit.flatMap statusPiece ++ s.srt.bins.flatMap statusBin ++
    statusHolding s.srt.overflow ++ statusHolding s.srt.reject ++ bigCountField s.srt.unregDone

/-- SET's part: save state IDLE or SAVING, and the last outcome (R186). -/
def statusSettings (s : State) : List Byte := le1 (yesNo s.set.save.isSome) ++ le1 s.set.outcome.code

/-- The STATUS reply after the status byte (R179). -/
def statusBody (s : State) : List Byte :=
  statusLink s ++ statusOrders s ++ statusScheduling s ++ statusExposure s ++ statusFetch s ++ statusWeb s ++
    statusCutter s ++ statusSorter s ++ statusSettings s

/-! ### The request (R179) -/

/-- LNK's overrun flag and counts cleared (R179, R180). -/
def Lnk.clearCounts (x : Lnk) : Lnk :=
  { x with
    overrun := false
    stationCrc := 0
    stationFraming := 0
    imageCrc := 0
    imageFraming := 0
    rxOverruns := 0 }

/-- What is cleared once the reply is built (R179); the free value it used is spent (log 5). -/
def clearStatus (s : State) : State :=
  let s := s.setLnk s.lnk.clearCounts
  let s := s.setIfu { s.ifu with expiries := 0 }
  let s := s.setSrt { s.srt with unregDone := 0 }
  s.setFree (s.free + 1)

/-- STATUS (R179). -/
def statusRequest (_body : List Byte) (s : State) : State × List Byte := (clearStatus s, le1 stOK ++ statusBody s)

/-! ### RESET (R180) -/

/-- RESET is answered OK and the reset is scheduled (R180). -/
def resetRequest (_body : List Byte) (s : State) : State × List Byte :=
  ok (s.setLnk { s.lnk with resetPending := true })

end Sys2Proof.Machine
end

