-- ==== Sys2Proof/WellFormed.lean ====
section
/-!
DEFINITION. Which commands can arise: a request comes in a frame whose body the Station link can carry.
-/
namespace Sys2Proof

/-- The greatest body length of a Station link frame (R171). -/
def maxStationBody : Nat := 1024

/-- A command is well formed when its operands lie in the ranges its row gives them. The types of the fetch tag
(0..7, R67), of a bin (0..25, R125) and of a densitometer value (0..1023, R60) already hold theirs; a request body
lies within the link's maximum (R171). -/
def Instr.wf : Instr → Bool
  | .orderSubmit _ body => decide (body.length ≤ maxStationBody)
  | .orderQuery _ body => decide (body.length ≤ maxStationBody)
  | .orderCancel _ body => decide (body.length ≤ maxStationBody)
  | .orderPriority _ body => decide (body.length ≤ maxStationBody)
  | .orderCollect _ body => decide (body.length ≤ maxStationBody)
  | .magLoad _ body => decide (body.length ≤ maxStationBody)
  | .magUnload _ body => decide (body.length ≤ maxStationBody)
  | .calibrate _ body => decide (body.length ≤ maxStationBody)
  | .sizeWrite _ body => decide (body.length ≤ maxStationBody)
  | .sizeRead _ body => decide (body.length ≤ maxStationBody)
  | .profileWrite _ body => decide (body.length ≤ maxStationBody)
  | .profileRead _ body => decide (body.length ≤ maxStationBody)
  | .ladderWrite _ body => decide (body.length ≤ maxStationBody)
  | .ladderRead _ body => decide (body.length ≤ maxStationBody)
  | .priceWrite _ body => decide (body.length ≤ maxStationBody)
  | .priceRead _ body => decide (body.length ≤ maxStationBody)
  | .windowWrite _ body => decide (body.length ≤ maxStationBody)
  | .windowRead _ body => decide (body.length ≤ maxStationBody)
  | .settingWrite _ body => decide (body.length ≤ maxStationBody)
  | .settingRead _ body => decide (body.length ≤ maxStationBody)
  | .settingsSave _ body => decide (body.length ≤ maxStationBody)
  | .status _ body => decide (body.length ≤ maxStationBody)
  | .pathClear _ body => decide (body.length ≤ maxStationBody)
  | .pathClearButton => true
  | .sorterResume _ body => decide (body.length ≤ maxStationBody)
  | .headReset _ body => decide (body.length ≤ maxStationBody)
  | .reset _ body => decide (body.length ≤ maxStationBody)
  | .resetTakesEffect => true
  | .powerOnReset => true
  | .stationFrameReceived _ => true
  | .imageFrameReceived _ => true
  | .frameGapTimeout _ => true
  | .transmitComplete => true
  | .fetchSent => true
  | .fetchTimeout _ => true
  | .quarantineExpiry _ => true
  | .warmUpCompletion => true
  | .headFaultEvent => true
  | .exposureRunStart => true
  | .exposureFeedStep => true
  | .flushTimerExpiry => true
  | .threadedEvent => true
  | .paperEndSensor => true
  | .cutterFeedStep _ => true
  | .cutCompletion => true
  | .bladeJam => true
  | .densitometerReading _ _ _ => true
  | .dropStart => true
  | .dropCompletion => true
  | .transportJam => true
  | .binSensorEvent _ _ => true
  | .idleTimerExpiry => true
  | .saveStageCompletion => true
  | .memoryWriteFault => true

end Sys2Proof
end

