-- ==== Sys2Proof/Machine/Link.lean ====
section
/-!
DEFINITION. LNK: carrying out requests (R173, R174, R176), the transmitter (R178), the framers' outcomes (R172), and the
end of every event.
-/
namespace Sys2Proof.Machine

/-! ### Carrying out a request (R174) -/

/-- The owner of a request kind decides its effect and its reply body (R183, kind table). A kind of no request is
answered before this (R174 step 2). -/
def ownerAnswer (kind : Nat) (body : List Byte) (s : State) : State × List Byte :=
  match kind with
  | 0x01 => orderSubmit body s
  | 0x02 => orderQuery body s
  | 0x03 => orderCancel body s
  | 0x04 => orderPriority body s
  | 0x05 => orderCollect body s
  | 0x10 => magLoad body s
  | 0x11 => magUnload body s
  | 0x12 => calibrate body s
  | 0x20 => sizeWrite body s
  | 0x21 => sizeRead body s
  | 0x22 => profileWrite body s
  | 0x23 => profileRead body s
  | 0x24 => ladderWrite body s
  | 0x25 => ladderRead body s
  | 0x26 => priceWrite body s
  | 0x27 => priceRead body s
  | 0x28 => windowWrite body s
  | 0x29 => windowRead body s
  | 0x30 => settingWrite body s
  | 0x31 => settingRead body s
  | 0x32 => settingsSave body s
  | 0x38 => statusRequest body s
  | 0x39 => pathClearRequest body s
  | 0x3A => sorterResume body s
  | 0x3B => headReset body s
  | 0x3C => resetRequest body s
  | _ => refuse stBadFormat s

/-- The first request in STANDBY starts the part waking; in WAKING nothing further starts (R176, R189). -/
def startWaking (s : State) : State :=
  if s.lnk.power = .standby then warmUp (s.setLnk { s.lnk with power := .waking }) else s

/-- The kind of a reply is the request's with bit 7 set (R171). -/
def replyKind (kind : Byte) : Byte := kind ||| 0x80#8

/-- The reply of a request takes a place of the reply queue (R173). -/
def pushReply (r : Request) (body : List Byte) (ofReset : Bool) (s : State) : State :=
  s.setLnk { s.lnk with replies := s.lnk.replies ++ [⟨replyKind r.kind, r.tag, body, ofReset⟩] }

/-- The idle timer restarts from the full setting at every request carried out by its owner (R188); the end of the
event starts it again. -/
def restartIdle (s : State) : State := s.setLnk { s.lnk with idleTimer := none }

/-- The body length suits the kind; ORDER_SUBMIT's length is ORT's to check (R174 step 3, R6). -/
def lengthFits (kind : Nat) (body : List Byte) : Bool :=
  match requestLength kind with
  | none => false
  | some none => true
  | some (some n) => body.length == n

/-- A request is carried out: power state, kind, length, owner (R174). -/
def carryOut (r : Request) (s : State) : State :=
  if s.lnk.power ≠ .active then pushReply r (le1 stWaking) false (startWaking s)
  else if lengthFits r.kind.toNat r.body then
    let a := ownerAnswer r.kind.toNat r.body s
    pushReply r a.2 (r.kind == 0x3C#8) (restartIdle a.1)
  else pushReply r (le1 stBadFormat) false s

/-! ### The transmitter (R178) -/

/-- The notice with the highest priority and, among equals, the earliest occurrence: the first of the greatest
priority, since the queue is in occurrence order (R177, R178). -/
def nextNotice : List Notice → Option Notice
  | [] => none
  | n :: ns =>
    match nextNotice ns with
    | none => some n
    | some m => if n.priority < m.priority then some m else some n

/-- The part begins to send a frame. -/
def beginSend (f : OutFrame) (s : State) : State :=
  drive (.stationFrame (frameBytes f.kind f.tag f.body)) (s.setLnk { s.lnk with tx := some f })

/-- A notice as a frame: its kind, tag 0 (R171). -/
def Notice.frame (n : Notice) : OutFrame := ⟨n.kind.code, 0, n.body, false⟩

/-- The idle transmitter takes the oldest reply, or else the most urgent notice (R178). -/
def takeNext (s : State) : State :=
  match s.lnk.tx with
  | some _ => s
  | none =>
    match s.lnk.replies with
    | f :: rest => beginSend f (s.setLnk { s.lnk with replies := rest })
    | [] =>
      match nextNotice s.lnk.notices with
      | some n => beginSend n.frame (s.setLnk { s.lnk with notices := s.lnk.notices.erase n })
      | none => s

/-! ### Waiting requests (R173) -/

/-- The oldest waiting request is carried out while the reply queue has a free place and no reset is scheduled (R173,
R180); at most two wait. -/
def carryWaiting : Nat → State → State
  | 0, s => s
  | fuel + 1, s =>
    match s.lnk.waiting with
    | r :: rest =>
      if s.lnk.resetPending = false ∧ s.lnk.replies.length < 4 then
        carryWaiting fuel (quiesce (carryOut r (s.setLnk { s.lnk with waiting := rest })))
      else s
    | [] => s

/-- LNK's part at the end of an event: requests are carried out, the transmitter takes its next frame, and a place it
frees lets a further request be carried out (R173, R178; log 4). -/
def linkService (s : State) : State := carryWaiting 2 (takeNext (carryWaiting 2 s))

/-- The end of an event: the tests it called for, then LNK's part. -/
def finish (s : State) : State := linkService (quiesce s)

/-- The beginning of a step: nothing has been driven and no test is due. -/
def begin (s : State) : State := (s.setPorts []).setDue Due.none

/-- Both feeds are commanded as the event left them, where that is not what they did before it (R105, R112). -/
def driveFeeds (before s : State) : State := driveFlush (flushDrive before) (driveCutter (cutterDrive before) s)

/-- An event with an effect, from beginning to end; the feeds follow what the event left of them. -/
def event (effect : State → State) (s : State) : Host.Outcome State Fault Refusal :=
  .next (driveFeeds s (finish (effect (begin s))))

/-! ### Received frames (R172, R173, R181) -/

/-- A discard count: it stays at 65,535 once it reaches it (R172). -/
def bump (n : Nat) : Nat := min (n + 1) 65535

/-- A framing fault on the Station link (R172). -/
def stationFraming (s : State) : State := s.setLnk { s.lnk with stationFraming := bump s.lnk.stationFraming }

/-- A good frame on the Station link: a kind with bit 7 set is discarded, a request joins the waiting frames when fewer
than two wait, and is lost otherwise (R173). -/
def takeStationFrame (r : Request) (s : State) : State :=
  if r.kind.msb then stationFraming s
  else if s.lnk.waiting.length < 2 then s.setLnk { s.lnk with waiting := s.lnk.waiting ++ [r] }
  else s.setLnk { s.lnk with rxOverruns := bump s.lnk.rxOverruns }

/-- A request arrives as a good frame; a body above the link's maximum is a framing fault (R172, log 2). -/
def request (kind tag : Byte) (body : List Byte) (s : State) : Host.Outcome State Fault Refusal :=
  event (fun s => if body.length ≤ maxStationBody then takeStationFrame ⟨kind, tag, body⟩ s else stationFraming s) s

/-- The outcome of a byte on the Station link (R172). A good frame is a whole event of its own (log 25). -/
def stationOutcome (ev : FrameEvent) (s : State) : State :=
  match ev with
  | .nothing => s
  | .framingFault => stationFraming s
  | .crcFault => s.setLnk { s.lnk with stationCrc := bump s.lnk.stationCrc }
  | .good kind tag body => finish (takeStationFrame ⟨kind, tag, body⟩ s)

/-- One byte received on the Station link (R172). -/
def stationByte (b : Byte) (s : State) : State :=
  let x := s.lnk.stationRx.feed maxStationBody b
  stationOutcome x.2 (s.setLnk { s.lnk with stationRx := x.1 })

/-- A framing fault on the Image link (R172, R181). -/
def imageFraming (s : State) : State := s.setLnk { s.lnk with imageFraming := bump s.lnk.imageFraming }

/-- The kind of a DATA frame (R183). -/
def dataKind : Byte := 0xE0

/-- A good frame on the Image link: DATA goes to IFU, any other kind is discarded (R181). -/
def takeImageFrame (kind tag : Byte) (body : List Byte) (s : State) : State :=
  if kind = dataKind then takeData tag.toNat body s else imageFraming s

/-- The outcome of a byte on the Image link (R172). A good frame is a whole event of its own (log 25). -/
def imageOutcome (ev : FrameEvent) (s : State) : State :=
  match ev with
  | .nothing => s
  | .framingFault => imageFraming s
  | .crcFault => s.setLnk { s.lnk with imageCrc := bump s.lnk.imageCrc }
  | .good kind tag body => finish (takeImageFrame kind tag body s)

/-- One byte received on the Image link (R172). -/
def imageByte (b : Byte) (s : State) : State :=
  let x := s.lnk.imageRx.feed maxImageBody b
  imageOutcome x.2 (s.setLnk { s.lnk with imageRx := x.1 })

/-- Bytes received one after the other. -/
def stationBytes (bytes : List Byte) (s : State) : State := bytes.foldl (fun s b => stationByte b s) s

/-- Bytes received one after the other. -/
def imageBytesIn (bytes : List Byte) (s : State) : State := bytes.foldl (fun s b => imageByte b s) s

/-- 20 ms pass between two bytes of a frame: a framing fault; in HUNT no frame is in progress (R172). -/
def gapTimeout (l : LinkId) (s : State) : State :=
  match l with
  | .station =>
    if s.lnk.stationRx.phase = .hunt then s
    else stationFraming (s.setLnk { s.lnk with stationRx := Framer.hunting })
  | .image =>
    if s.lnk.imageRx.phase = .hunt then s
    else imageFraming (s.setLnk { s.lnk with imageRx := Framer.hunting })

/-! ### The FETCH transmitter (R181) -/

/-- The fetch timer of a tag starts with the timeout in force; it belongs to the last FETCH issued for the tag (R71,
R181). -/
def startFetchTimer (f : FetchFrame) (s : State) : State :=
  if s.lnk.imageWaiting.any fun g => g.tag == f.tag then s
  else
    match s.ifu.tags[f.tag]? with
    | some (.outstanding info slot none) =>
      setTag f.tag (.outstanding info slot (some s.set.settings.fetchTimeout)) s
    | _ => s

/-- The last byte of a FETCH has been transmitted: its timer starts, and the next FETCH begins (R181). -/
def fetchSentEffect (s : State) : State :=
  match s.lnk.imageTx with
  | some f => startImageTx (startFetchTimer f (s.setLnk { s.lnk with imageTx := none }))
  | none => s

/-! ### The reset (R180) -/

/-- A tag at a reset: OUTSTANDING becomes EXPIRED with a fresh quarantine (R84). -/
def FetchTag.quarantine (timeout : Nat) : FetchTag → FetchTag
  | .outstanding info _ _ => .expired info (4 * timeout)
  | .free => .free
  | .expired info t => .expired info t

/-- LNK at the reset: frames and notices are discarded, counts cleared, framers hunt (R180). -/
def resetLink (s : State) : State :=
  s.setLnk { s.lnk.clearCounts with
    stationRx := Framer.hunting
    imageRx := Framer.hunting
    waiting := []
    replies := []
    notices := []
    tx := none
    imageWaiting := []
    resetPending := false
    idleTimer := none }

/-- ORT, SCH and IFU at the reset (R23, R43, R84). -/
def resetWork (s : State) : State :=
  let s := (s.setOrt Ort.atReset).setSch Sch.atReset
  s.setIfu { Ifu.atReset with tags := s.ifu.tags.map (FetchTag.quarantine s.set.settings.fetchTimeout) }

/-- EXU at the reset: a READY head stays READY, any other not exposing begins its warm-up (R58). -/
def resetHead (s : State) : State := if s.exu.head = .ready then s else warmUp s

/-- An order bin at the reset, re-derived from its sensor (R141). -/
def OrderBin.rederive (x : OrderBin) : OrderBin :=
  { x with
    state := if x.sensor.filtered = some .occupied then .unclaimed else .free
    owner := none
    count := 0 }

/-- SRT at the reset (R141). -/
def resetSorter (s : State) : State :=
  let s := endDrop s
  s.setSrt { s.srt with
    transit := []
    jammed := false
    state := .run
    bins := s.srt.bins.map OrderBin.rederive
    overflow := { s.srt.overflow with full := false, count := 0 }
    reject := { s.srt.reject with full := false, count := 0 }
    discards := s.srt.discards + countWhere (fun p => p.reading == .awaited) s.srt.transit
    unregDone := 0 }

/-- The power state after the reset (R180). -/
def resetPower (s : State) : State :=
  s.setLnk { s.lnk with power := if s.exu.head = .ready then .active else .waking }

/-- The RESET request takes effect (R180). The frames it removes are reported to no order. -/
def resetEffect (s : State) : State :=
  let s := resetHead (stopWeb (resetWork (resetLink s)))
  let s := s.setWeb { s.web with map := [], ask := none }
  resetPower (clearWeb (resetSorter (cutClear s)))

/-- The frame being sent is the reply of a RESET (R180). -/
def sendingResetReply (s : State) : Bool :=
  match s.lnk.tx with
  | some f => f.resetReply
  | none => false

/-- The transmitter finishes a frame. When it was the reply of a RESET, the reset takes effect (R178, R180). -/
def transmitDone (s : State) : State :=
  if sendingResetReply s then resetEffect s else s.setLnk { s.lnk with tx := none }

/-- The reset takes effect at the last byte of its reply and at no other time (R180, log 14). -/
def resetTakesEffect (s : State) : State := if sendingResetReply s then resetEffect s else s

/-! ### Power-on (R182, R187) -/

/-- Power-on reset: SET loads the settings memory, and every block takes its reset values (R182, R187). The memory is
kept; so are the model's own queue and counter of free values (log 24). -/
def powerOn (s : State) : State :=
  ((State.poweredOn s.set.memory (loadImage s.set.memory)).setPending s.pending).setFree s.free

end Sys2Proof.Machine
end

