-- ==== Sys2Proof/Machine/CutterEvents.lean ====
section
/-!
DEFINITION. The meanings of the cutter's events: feed steps (R112), cut completions (R113), blade jams (R119).
-/
namespace Sys2Proof.Machine

/-! ### Feed steps (R112) -/

/-- One driven step: C rises, the sample is taken, a target reached falls due; WEB makes the run test (R112, R99). -/
def cutterAdvance (seen : Bool) (s : State) : State :=
  let s := s.setWeb { s.web with c := s.web.c + 1 }
  oweRun (checkDue (takeSample (s.web.c + s.set.settings.markOffset) seen s))

/-- A cutter-feed encoder event; discarded with its sample while no feed is driven (R112). -/
def cutterStep (seen : Bool) (s : State) : State := if cutterDriven s then cutterAdvance seen s else s

/-- CUTTER_FEED_STEP (R112). -/
def execCutterFeedStep (markSeen : Bool) (s : State) : Host.Outcome State Fault Refusal :=
  event (cutterStep markSeen) s

/-! ### Cut completions (R113) -/

/-- A leading cut completes (R113). -/
def leadingDone (s : State) : State := dropCarried (s.setCut { s.cut with leadingMade := true })

/-- The carried record of an entry that leaves the web map (R108, log 22). -/
def carriedOf (s : State) (e : WebEntry) : Option Carried :=
  (gapRecord s e.frame.number).map fun g => ⟨g, e.mark⟩

/-- A trailing cut completes: the oldest entry joins the transit queue, and its gap record is carried (R113, R123). -/
def trailingDone (s : State) : State :=
  match s.web.map with
  | e :: rest =>
    let carried := carriedOf s e
    let s := appendPiece e (s.setWeb { s.web with map := rest })
    let s := s.setCut { s.cut with
      carried := carried
      gaps := s.cut.gaps.filter fun g => g.frame != e.frame.number
      leadingMade := false }
    oweFlush (oweRun s)
  | [] => s

/-- The cut being made completes; CUT chooses its next cut, and an emptied web in CHANGEOVER is rethreaded (R113, R110,
R93). -/
def finishCut (s : State) : State :=
  match s.cut.nextCut with
  | some x =>
    match x.kind with
    | .leading => chooseCut (leadingDone s)
    | .trailing =>
      let s := chooseCut (trailingDone s)
      if s.web.state = .changeover then changeoverThread s else s
  | none => s

/-- The cut completion event: an abandoned cut's is discarded and counted down, one in any state but CUTTING is
discarded (R113). -/
def cutDone (s : State) : State :=
  if 0 < s.cut.abandoned then s.setCut { s.cut with abandoned := s.cut.abandoned - 1 }
  else if s.cut.state = .cutting then finishCut s
  else s

/-- CUT_COMPLETION (R113). -/
def execCutCompletion (s : State) : Host.Outcome State Fault Refusal := event cutDone s

/-! ### Blade jams (R119) -/

/-- A blade jam in any state but FAULT (R119). -/
def bladeJam (s : State) : State := if s.cut.state = .fault then s else cutterFault .bladeJam s

/-- BLADE_JAM (R119). -/
def execBladeJam (s : State) : Host.Outcome State Fault Refusal := event bladeJam s

end Sys2Proof.Machine
end

