-- ==== Sys2Proof/Machine/LinkEvents.lean ====
section
/-!
DEFINITION. The meanings of the link events (R172, R173, R178, R181), of the fetch timers (R81, R82), of the resets (R180,
R187), and of SET's and LNK's timers (R186, R188).
-/
namespace Sys2Proof.Machine

/-- STATION_FRAME_RECEIVED: bytes received on the Station link (R172, R173; log 25). -/
def execStationFrameReceived (bytes : List Byte) (s : State) : Host.Outcome State Fault Refusal :=
  event (stationBytes bytes) s

/-- IMAGE_FRAME_RECEIVED: bytes received on the Image link (R172, R181; log 25). -/
def execImageFrameReceived (bytes : List Byte) (s : State) : Host.Outcome State Fault Refusal :=
  event (imageBytesIn bytes) s

/-- FRAME_GAP_TIMEOUT (R172). -/
def execFrameGapTimeout (l : LinkId) (s : State) : Host.Outcome State Fault Refusal := event (gapTimeout l) s

/-- TRANSMIT_COMPLETE (R178, R180). -/
def execTransmitComplete (s : State) : Host.Outcome State Fault Refusal := event transmitDone s

/-- FETCH_SENT (R181). -/
def execFetchSent (s : State) : Host.Outcome State Fault Refusal := event fetchSentEffect s

/-- FETCH_TIMEOUT (R81). -/
def execFetchTimeout (t : Fin 8) (s : State) : Host.Outcome State Fault Refusal := event (expireTag t.val) s

/-- QUARANTINE_EXPIRY (R82). -/
def execQuarantineExpiry (t : Fin 8) (s : State) : Host.Outcome State Fault Refusal := event (endQuarantine t.val) s

/-- RESET_TAKES_EFFECT (R180). -/
def execResetTakesEffect (s : State) : Host.Outcome State Fault Refusal := event resetTakesEffect s

/-- POWER_ON_RESET (R182, R187). The reset itself calls for no test. -/
def execPowerOnReset (s : State) : Host.Outcome State Fault Refusal := .next (powerOn s)

/-- The part enters STANDBY: the head goes OFF and the feeds and the transport stop (R54, R188; log 17). -/
def enterStandby (s : State) : State :=
  let s := drive .headOff (setHead .off (disarmFlush (s.setWeb { s.web with flush := none })))
  let s := drive .transportStop (drive .cutterStop (drive .exposureStop s))
  s.setLnk { s.lnk with power := .standby, idleTimer := none }

/-- The idle timer runs out (R188). A timer that does not run does not expire. -/
def idleExpiry (s : State) : State := if s.lnk.idleTimer.isSome then enterStandby s else s

/-- IDLE_TIMER_EXPIRY (R188). -/
def execIdleTimerExpiry (s : State) : Host.Outcome State Fault Refusal := event idleExpiry s

/-- SAVE_STAGE_COMPLETION (R186). -/
def execSaveStageCompletion (s : State) : Host.Outcome State Fault Refusal := event saveStage s

/-- MEMORY_WRITE_FAULT (R186). -/
def execMemoryWriteFault (s : State) : Host.Outcome State Fault Refusal := event saveFault s

end Sys2Proof.Machine
end

