-- ==== Sys2Proof/Machine/Requests.lean ====
section
/-!
DEFINITION. The meanings of the requests: each is a good frame of its kind on the Station link, with its tag and body
(R171, R173, R174; log 2). What the request does is its owner's rule.
-/
namespace Sys2Proof.Machine

/-- ORDER_SUBMIT (R6 to R12). -/
def execOrderSubmit (tag : Byte) (body : List Byte) (s : State) : Host.Outcome State Fault Refusal :=
  request 0x01 tag body s

/-- ORDER_QUERY (R18). -/
def execOrderQuery (tag : Byte) (body : List Byte) (s : State) : Host.Outcome State Fault Refusal :=
  request 0x02 tag body s

/-- ORDER_CANCEL (R20). -/
def execOrderCancel (tag : Byte) (body : List Byte) (s : State) : Host.Outcome State Fault Refusal :=
  request 0x03 tag body s

/-- ORDER_PRIORITY (R19). -/
def execOrderPriority (tag : Byte) (body : List Byte) (s : State) : Host.Outcome State Fault Refusal :=
  request 0x04 tag body s

/-- ORDER_COLLECT (R21). -/
def execOrderCollect (tag : Byte) (body : List Byte) (s : State) : Host.Outcome State Fault Refusal :=
  request 0x05 tag body s

/-- MAG_LOAD (R86). -/
def execMagLoad (tag : Byte) (body : List Byte) (s : State) : Host.Outcome State Fault Refusal :=
  request 0x10 tag body s

/-- MAG_UNLOAD (R87). -/
def execMagUnload (tag : Byte) (body : List Byte) (s : State) : Host.Outcome State Fault Refusal :=
  request 0x11 tag body s

/-- CALIBRATE (R63). -/
def execCalibrate (tag : Byte) (body : List Byte) (s : State) : Host.Outcome State Fault Refusal :=
  request 0x12 tag body s

/-- SIZE_WRITE (R45). -/
def execSizeWrite (tag : Byte) (body : List Byte) (s : State) : Host.Outcome State Fault Refusal :=
  request 0x20 tag body s

/-- SIZE_READ (R45). -/
def execSizeRead (tag : Byte) (body : List Byte) (s : State) : Host.Outcome State Fault Refusal :=
  request 0x21 tag body s

/-- PROFILE_WRITE (R46). -/
def execProfileWrite (tag : Byte) (body : List Byte) (s : State) : Host.Outcome State Fault Refusal :=
  request 0x22 tag body s

/-- PROFILE_READ (R46). -/
def execProfileRead (tag : Byte) (body : List Byte) (s : State) : Host.Outcome State Fault Refusal :=
  request 0x23 tag body s

/-- LADDER_WRITE (R47). -/
def execLadderWrite (tag : Byte) (body : List Byte) (s : State) : Host.Outcome State Fault Refusal :=
  request 0x24 tag body s

/-- LADDER_READ (R47). -/
def execLadderRead (tag : Byte) (body : List Byte) (s : State) : Host.Outcome State Fault Refusal :=
  request 0x25 tag body s

/-- PRICE_WRITE (R145). -/
def execPriceWrite (tag : Byte) (body : List Byte) (s : State) : Host.Outcome State Fault Refusal :=
  request 0x26 tag body s

/-- PRICE_READ (R147). -/
def execPriceRead (tag : Byte) (body : List Byte) (s : State) : Host.Outcome State Fault Refusal :=
  request 0x27 tag body s

/-- WINDOW_WRITE (R130). -/
def execWindowWrite (tag : Byte) (body : List Byte) (s : State) : Host.Outcome State Fault Refusal :=
  request 0x28 tag body s

/-- WINDOW_READ (R130). -/
def execWindowRead (tag : Byte) (body : List Byte) (s : State) : Host.Outcome State Fault Refusal :=
  request 0x29 tag body s

/-- SETTING_WRITE (R185). -/
def execSettingWrite (tag : Byte) (body : List Byte) (s : State) : Host.Outcome State Fault Refusal :=
  request 0x30 tag body s

/-- SETTING_READ (R185). -/
def execSettingRead (tag : Byte) (body : List Byte) (s : State) : Host.Outcome State Fault Refusal :=
  request 0x31 tag body s

/-- SETTINGS_SAVE (R186). -/
def execSettingsSave (tag : Byte) (body : List Byte) (s : State) : Host.Outcome State Fault Refusal :=
  request 0x32 tag body s

/-- STATUS (R179). -/
def execStatus (tag : Byte) (body : List Byte) (s : State) : Host.Outcome State Fault Refusal :=
  request 0x38 tag body s

/-- PATH_CLEAR (R165, R166). -/
def execPathClear (tag : Byte) (body : List Byte) (s : State) : Host.Outcome State Fault Refusal :=
  request 0x39 tag body s

/-- SORTER_RESUME (R139). -/
def execSorterResume (tag : Byte) (body : List Byte) (s : State) : Host.Outcome State Fault Refusal :=
  request 0x3A tag body s

/-- HEAD_RESET (R57). -/
def execHeadReset (tag : Byte) (body : List Byte) (s : State) : Host.Outcome State Fault Refusal :=
  request 0x3B tag body s

/-- RESET (R180). -/
def execReset (tag : Byte) (body : List Byte) (s : State) : Host.Outcome State Fault Refusal :=
  request 0x3C tag body s

end Sys2Proof.Machine
end

