-- ==== Sys2Proof/Machine/SorterEvents.lean ====
section
/-!
DEFINITION. The meanings of the sorter's events: densitometer readings (R124), drops (R133 to R135), jams (R138), bin
sensors (R127, R128).
-/
namespace Sys2Proof.Machine

/-! ### Readings (R124) -/

/-- A transit queue whose oldest AWAITED piece is made TAKEN, with that piece. -/
def takeAwaited : List Piece → Option (Piece × List Piece)
  | [] => none
  | p :: ps =>
    if p.reading = .awaited then some (p, { p with reading := .taken } :: ps)
    else
      match takeAwaited ps with
      | some (q, qs) => some (q, p :: qs)
      | none => none

/-- A reading event: discarded while readings are to be discarded, matched to the oldest AWAITED piece, or discarded
(R124). -/
def reading (x : RGB Nat) (s : State) : State :=
  if 0 < s.srt.discards then s.setSrt { s.srt with discards := s.srt.discards - 1 }
  else
    match takeAwaited s.srt.transit with
    | some (p, transit) => stripRead p.frame.mag p.frame.number x (s.setSrt { s.srt with transit := transit })
    | none => s

/-- DENSITOMETER_READING (R124, R60). -/
def execDensitometerReading (red green blue : BitVec 10) (s : State) : Host.Outcome State Fault Refusal :=
  event (reading ⟨red.toNat, green.toNat, blue.toNat⟩) s

/-! ### Drops (R133 to R135) -/

/-- A drop starts when the conditions of R133 hold, and not otherwise. -/
def dropStartEffect (s : State) : State := if dropReady s then dropStart s else s

/-- DROP_START (R133, R134). -/
def execDropStart (s : State) : Host.Outcome State Fault Refusal := event dropStartEffect s

/-- The drop completion event: an ended drop's is discarded and counted down, one without a drop is discarded (R133,
R135). -/
def dropCompletion (s : State) : State :=
  if 0 < s.srt.ended then s.setSrt { s.srt with ended := s.srt.ended - 1 }
  else if s.srt.dropping then dropDone s
  else s

/-- DROP_COMPLETION (R135). -/
def execDropCompletion (s : State) : Host.Outcome State Fault Refusal := event dropCompletion s

/-! ### Jams (R138) -/

/-- The sorter enters FAULT at a jam (R138). The rule has a live print lost and SORTER_FAULT sent, and does not order the two:
the model takes the loss first, as the worked jam of chapter 9 tells it, so FRAME_LOST and what follows from it come before
SORTER_FAULT (log 58). -/
def enterJam (s : State) : State :=
  let s := s.setSrt { s.srt with state := .fault }
  sorterFaultNotice (if s.srt.dropping then jamHead s else s)

/-- A jam event by the sorter state (R138). -/
def transportJam (s : State) : State :=
  match s.srt.state with
  | .run => enterJam s
  | .hold => enterJam s
  | .fault => s

/-- TRANSPORT_JAM (R138). -/
def execTransportJam (s : State) : Host.Outcome State Fault Refusal := event transportJam s

/-! ### Bin sensors (R127, R128) -/

/-- The samples of a bin's sensor, one after the other (R127; log 19). -/
def binSamples (b : Nat) (samples : List Occupancy) (s : State) : State :=
  samples.foldl (fun s v => binSample b v s) s

/-- BIN_SENSOR_EVENT (R127, R128). -/
def execBinSensorEvent (b : Fin 26) (samples : List Occupancy) (s : State) : Host.Outcome State Fault Refusal :=
  event (binSamples b.val samples) s

end Sys2Proof.Machine
end

