-- ==== Sys2Proof/Machine/WebEvents.lean ====
section
/-!
DEFINITION. The meanings of the events of the exposure head (R54, R56), of the exposure runs and flushes (R99 to R105), of
threading and paper end (R91, R94), and of the path-clear button (R165).
-/
namespace Sys2Proof.Machine

/-! ### The head (R54, R56) -/

/-- The warm-up completion: READY from WARMING, and a waking part is ACTIVE; discarded in any other state (R54, R189).
-/
def warmUpDone (s : State) : State :=
  if s.exu.head = .warming then oweRun (awake (setHead .ready s)) else s

/-- A mark status that is still PENDING becomes NONE (R98). -/
def WebEntry.noMark (e : WebEntry) : WebEntry := { e with mark := if e.mark = .pending then .none else e.mark }

/-- HEAD_FAULT is sent (R56). -/
def headFaultNotice (before : HeadState) (frame : Option Nat) (s : State) : State :=
  sendNotice .headFault (le1 before.code ++ frameField frame) s

/-- The frame being exposed is spoiled by a head fault: SPOILED and lost, its mark not printed, its supply abandoned
(R56, R73, R98). -/
def spoilByHead (n : Nat) (s : State) : State :=
  abandonSupply n (spoilOnWeb n .headFault none (updEntry n WebEntry.noMark s))

/-- The head goes to FAULT; a waking part becomes ACTIVE (R56, R189; the order of the notices: log 21). -/
def headToFault (before : HeadState) (frame : Option Nat) (s : State) : State :=
  headFaultNotice before frame (awake (setHead .fault s))

/-- The head fault by head state (R56). -/
def headFault (s : State) : State :=
  match s.exu.head with
  | .exposing =>
    match runFrame s with
    | some f => spoilByHead f.number (headToFault .exposing (some f.number) s)
    | none => headToFault .exposing none s
  | .ready => headToFault .ready none s
  | .warming => headToFault .warming none s
  | .fault => s
  | .off => s

/-- WARM_UP_COMPLETION (R54, R189). -/
def execWarmUpCompletion (s : State) : Host.Outcome State Fault Refusal := event warmUpDone s

/-- HEAD_FAULT_EVENT (R56). -/
def execHeadFaultEvent (s : State) : Host.Outcome State Fault Refusal := event headFault s

/-! ### The start of a run (R99, R101) -/

/-- The entry of a frame whose run starts (R97, R101). -/
def runEntry (f : Frame) (start : Nat) : WebEntry where
  frame := f
  start := start
  webState := .exposing
  mark := if 10 ≤ f.gap then .pending else .none
  markCoord := if 10 ≤ f.gap then some (start + f.lf + f.gap / 2) else none

/-- WEB takes the committed head (R39, R101). -/
def takeHead (s : State) : State :=
  let s := s.setSch { s.sch with queue := s.sch.queue.drop 1, committed := false }
  oweLeave (s.setIfu { s.ifu with primed := false })

/-- The head exposes; EXPOSURE_LIMITED is sent for a limited frame (R53, R55). -/
def beginExposure (f : Frame) (x : ExposureResult) (s : State) : State :=
  let s := drive (.headSetup x.exposure.dwells x.period) (setHead .exposing s)
  if x.exposure.limited then sendNotice .exposureLimited (exposureLimitedBody f x) s else s

/-- The entry is appended, CUT is told of it, and the frame becomes IFU's current frame (R101 steps 3 and 4). -/
def appendRun (f : Frame) (s : State) : State :=
  let e := runEntry f s.web.fIn
  let s := s.setWeb { s.web with map := s.web.map ++ [e] }
  cutAppend e (s.setIfu { s.ifu with current := some ⟨f.number, f.job, f.mag, f.lf, 0⟩ })

/-- The feed is driven for Lf + G steps; the flush timer and a flush end (R101 steps 5 and 6). -/
def driveRun (f : Frame) (period : Nat) (s : State) : State :=
  drive (.exposureRun (f.lf + f.gap) period) (s.setWeb { s.web with
    flushTimer := none
    flush := none
    run := some ⟨0, f.lf, f.gap, period⟩ })

/-- The start of a run for the committed head `f` (R101). -/
def startRun (f : Frame) (s : State) : State :=
  let x := computeExposure (exposureInput s f)
  let f' := { f with exposure := some x.exposure }
  driveRun f' x.period (appendRun f' (beginExposure f' x (takeHead s)))

/-- A run starts when all conditions of R99 hold, and not otherwise. -/
def runStart (s : State) : State :=
  if runReady s then
    match s.sch.queue with
    | f :: _ => startRun f s
    | [] => s
  else s

/-- EXPOSURE_RUN_START (R99, R101). -/
def execExposureRunStart (s : State) : Host.Outcome State Fault Refusal := event runStart s

/-! ### Exposure-feed steps (R102, R103, R105) -/

/-- The newest entry, changed. -/
def updNewest (f : WebEntry → WebEntry) (s : State) : State :=
  match s.web.newest with
  | some e => updEntry e.frame.number f s
  | none => s

/-- The mark step: a PENDING mark is printed (R102). -/
def markStep (s : State) : State :=
  match s.web.newest with
  | some e =>
    if e.mark = .pending then drive .headMark (updEntry e.frame.number (fun e => { e with mark := .printed }) s) else s
  | none => s

/-- What step `j` of a run does at the head (R102). -/
def runStepHead (r : Run) (s : State) : State :=
  if r.step < r.lf then lineDue r.step s
  else if r.step = r.lf + r.gap / 2 then markStep s
  else s

/-- A completed entry: EXPOSING becomes EXPOSED, SPOILED stays (R98, R103). -/
def WebEntry.complete (e : WebEntry) : WebEntry :=
  { e with webState := if e.webState = .exposing then .exposed else e.webState }

/-- The run is complete (R103): in CHANGEOVER the flush test of R93 follows. -/
def runComplete (s : State) : State :=
  let s := headRunOver (updNewest WebEntry.complete (s.setWeb { s.web with run := none }))
  let s := oweFlush (oweRun s)
  if s.web.state = .changeover ∧ flushNeeded s then beginFlush s else s

/-- One step of a run (R102). The rule's effects of one step are not ordered: the model makes the line due first and the
low-mark test after it, so FRAME_LOST of a missing line comes before MAG_LOW (log 56). -/
def runStep (r : Run) (s : State) : State :=
  let s := feedOne (runStepHead r s)
  if r.step + 1 = r.lf + r.gap then runComplete s
  else s.setWeb { s.web with run := some { r with step := r.step + 1 } }

/-- The flush ends at the end of the roll: the active magazine becomes EMPTY with cause FLUSH (R105; the length before:
log 11). -/
def flushRollEnd (before : Nat) (s : State) : State :=
  match s.web.active with
  | some m => emptyOrDrop m .flush before (stopFlush s)
  | none => s

/-- F_in has reached the flush target (R105). -/
def flushDone (s : State) : Bool :=
  match s.web.flush with
  | some target => decide (target ≤ s.web.fIn)
  | none => false

/-- One step of a flush, and its end at the target or at the end of the roll (R105). -/
def flushStep (s : State) : State :=
  let before := activeRemaining s
  let s := feedOne s
  let s := if flushDone s then stopFlush s else s
  if activeRemaining s = 0 then flushRollEnd before s else s

/-- An exposure-feed encoder event: a step of the run, a step of the flush, or discarded (R102, R105). -/
def feedStep (s : State) : State :=
  match s.web.run with
  | some r => runStep r s
  | none => if flushDriven s then flushStep s else s

/-- EXPOSURE_FEED_STEP (R102, R105). -/
def execExposureFeedStep (s : State) : Host.Outcome State Fault Refusal := event feedStep s

/-- The flush timer runs out (R105). A timer that is disarmed does not expire. -/
def flushExpiry (s : State) : State := if s.web.flushTimer.isSome then beginFlush (disarmFlush s) else s

/-- FLUSH_TIMER_EXPIRY (R105). -/
def execFlushTimerExpiry (s : State) : Host.Outcome State Fault Refusal := event flushExpiry s

/-! ### Threading (R91, R93) -/

/-- The strip mark of a magazine that becomes active (R34). -/
def markActive (m : Mag) (s : State) : State :=
  if s.set.settings.calibrateOnLoad ≠ 0 ∧ s.sch.mark m = .none then s.setMark m .awaiting else s

/-- An AWAITING strip mark of a magazine that is no longer active becomes NONE (R34). -/
def markInactive (m : Mag) (s : State) : State :=
  if s.sch.mark m = .awaiting then s.setMark m .none else s

/-- The changeover to `m` completes: the ask is dropped, the mark of the magazine that ceased to be active is cleared,
CHANGEOVER_DONE is sent, and changeover-pending is CLEAR (R93, R40, R34). -/
def changeoverDone (m : Mag) (s : State) : State :=
  let s := markInactive m.other (s.setWeb { s.web with ask := none })
  let r := s.web.mag m
  let s := sendNotice .changeoverDone (le1 m.code ++ le1 r.state.code ++ le4 r.remaining) s
  s.setSch { s.sch with changeover := .clear }

/-- The web on magazine `m` begins afresh (R91 steps 1 to 4). -/
def newWeb (m : Mag) (s : State) : State :=
  let path := s.set.settings.pathFixed
  let s := s.setWeb { s.web with active := some m, threading := none, fIn := path, c := 0 }
  setWebState .ready (setRemaining m ((s.web.mag m).remaining - path) s)

/-- The ask is carried out or completed at a threaded event (R91, R92, R93). -/
def askAtThreaded (m : Mag) (s : State) : State :=
  match s.web.ask with
  | none => s
  | some t => if t = m then changeoverDone m s else enterChangeover s

/-- A threading ends (R91). -/
def threaded (m : Mag) (s : State) : State :=
  let s := cutNewWeb (newWeb m s)
  oweMagazine (askAtThreaded m (markActive m s))

/-- The states in which a threaded event is taken (R91). -/
def WebState.takesThreaded : WebState → Bool
  | .threading => true
  | .clearing => true
  | .changeover => true
  | .unthreaded => false
  | .ready => false
  | .fault => false

/-- The threaded event (R91). -/
def threadedEvent (s : State) : State :=
  match s.web.threading with
  | some m => if s.web.state.takesThreaded then threaded m s else s
  | none => s

/-- THREADED_EVENT (R91, R93). -/
def execThreadedEvent (s : State) : Host.Outcome State Fault Refusal := event threadedEvent s

/-! ### Paper end (R94) -/

/-- The remaining length of a magazine becomes 0 and it becomes EMPTY with cause PAPER_END, unless it is EMPTY (R94). R88 has
the low-mark test at every change of remaining; that a length already 0 which is set to 0 gets the test too is the model's
choice (log 54). -/
def paperGone (m : Mag) (s : State) : State :=
  let before := (s.web.mag m).remaining
  emptyOrDrop m .paperEnd before (setRemaining m 0 s)

/-- The run ended by the paper end: its frame is spoiled and lost, its mark not printed (R94, R103). -/
def spoilByPaperEnd (s : State) : State :=
  match runFrame s with
  | some f =>
    endRunEarly (spoilOnWeb f.number .paperEnd none (updEntry f.number WebEntry.noMark s))
  | none => s

/-- The paper end of the threaded roll (R94, first row). The row does not order its effects: the model has the magazine
become EMPTY, with MAG_EMPTY and its queued frames given up, before the run's frame is lost (log 48). -/
def paperEndRunning (s : State) : State :=
  match s.web.active with
  | some m => setWebState .fault (stopFlush (spoilByPaperEnd (paperGone m s)))
  | none => setWebState .fault (stopFlush (spoilByPaperEnd s))

/-- The paper end of a roll being threaded (R94, second row): the threading is abandoned. -/
def paperEndThreading (m : Mag) (s : State) : State :=
  paperGone m (setWebState .fault (s.setWeb { s.web with threading := none }))

/-- The paper end in FAULT (R94, third row). A run that a cutter fault let go on still goes on, its frame unspoiled, with
remaining held at 0 (log 39). -/
def paperEndFault (s : State) : State :=
  match s.web.active with
  | some m => paperGone m s
  | none => s

/-- The paper-end sensor by web state (R94). -/
def paperEnd (s : State) : State :=
  match s.web.state with
  | .ready => paperEndRunning s
  | .changeover =>
    match s.web.threading with
    | some m => paperEndThreading m s
    | none => paperEndRunning s
  | .threading =>
    match s.web.threading with
    | some m => paperEndThreading m s
    | none => s
  | .clearing =>
    match s.web.threading with
    | some m => paperEndThreading m s
    | none => s
  | .fault => paperEndFault s
  | .unthreaded => s

/-- PAPER_END_SENSOR (R94). -/
def execPaperEndSensor (s : State) : Host.Outcome State Fault Refusal := event paperEnd s

/-! ### The path-clear button (R165) -/

/-- A press of the button: the clearing, except in standby and waking (R165). -/
def buttonPress (s : State) : State := if s.lnk.power = .active then pathClear s else s

/-- PATH_CLEAR_BUTTON (R165, R166). -/
def execPathClearButton (s : State) : Host.Outcome State Fault Refusal := event buttonPress s

end Sys2Proof.Machine
end

