-- ==== Sys2Proof/Machine/Dispatch.lean ====
section
/-! DEFINITION. One arm for each command, in the order of spec/opcode_table.json. -/
namespace Sys2Proof.Machine

def exec (i : Instr) (s : State) : Host.Outcome State Fault Refusal :=
  match i with
  | .orderSubmit tag body => Sys2Proof.Machine.execOrderSubmit tag body s
  | .orderQuery tag body => Sys2Proof.Machine.execOrderQuery tag body s
  | .orderCancel tag body => Sys2Proof.Machine.execOrderCancel tag body s
  | .orderPriority tag body => Sys2Proof.Machine.execOrderPriority tag body s
  | .orderCollect tag body => Sys2Proof.Machine.execOrderCollect tag body s
  | .magLoad tag body => Sys2Proof.Machine.execMagLoad tag body s
  | .magUnload tag body => Sys2Proof.Machine.execMagUnload tag body s
  | .calibrate tag body => Sys2Proof.Machine.execCalibrate tag body s
  | .sizeWrite tag body => Sys2Proof.Machine.execSizeWrite tag body s
  | .sizeRead tag body => Sys2Proof.Machine.execSizeRead tag body s
  | .profileWrite tag body => Sys2Proof.Machine.execProfileWrite tag body s
  | .profileRead tag body => Sys2Proof.Machine.execProfileRead tag body s
  | .ladderWrite tag body => Sys2Proof.Machine.execLadderWrite tag body s
  | .ladderRead tag body => Sys2Proof.Machine.execLadderRead tag body s
  | .priceWrite tag body => Sys2Proof.Machine.execPriceWrite tag body s
  | .priceRead tag body => Sys2Proof.Machine.execPriceRead tag body s
  | .windowWrite tag body => Sys2Proof.Machine.execWindowWrite tag body s
  | .windowRead tag body => Sys2Proof.Machine.execWindowRead tag body s
  | .settingWrite tag body => Sys2Proof.Machine.execSettingWrite tag body s
  | .settingRead tag body => Sys2Proof.Machine.execSettingRead tag body s
  | .settingsSave tag body => Sys2Proof.Machine.execSettingsSave tag body s
  | .status tag body => Sys2Proof.Machine.execStatus tag body s
  | .pathClear tag body => Sys2Proof.Machine.execPathClear tag body s
  | .pathClearButton => Sys2Proof.Machine.execPathClearButton s
  | .sorterResume tag body => Sys2Proof.Machine.execSorterResume tag body s
  | .headReset tag body => Sys2Proof.Machine.execHeadReset tag body s
  | .reset tag body => Sys2Proof.Machine.execReset tag body s
  | .resetTakesEffect => Sys2Proof.Machine.execResetTakesEffect s
  | .powerOnReset => Sys2Proof.Machine.execPowerOnReset s
  | .stationFrameReceived bytes => Sys2Proof.Machine.execStationFrameReceived bytes s
  | .imageFrameReceived bytes => Sys2Proof.Machine.execImageFrameReceived bytes s
  | .frameGapTimeout l => Sys2Proof.Machine.execFrameGapTimeout l s
  | .transmitComplete => Sys2Proof.Machine.execTransmitComplete s
  | .fetchSent => Sys2Proof.Machine.execFetchSent s
  | .fetchTimeout t => Sys2Proof.Machine.execFetchTimeout t s
  | .quarantineExpiry t => Sys2Proof.Machine.execQuarantineExpiry t s
  | .warmUpCompletion => Sys2Proof.Machine.execWarmUpCompletion s
  | .headFaultEvent => Sys2Proof.Machine.execHeadFaultEvent s
  | .exposureRunStart => Sys2Proof.Machine.execExposureRunStart s
  | .exposureFeedStep => Sys2Proof.Machine.execExposureFeedStep s
  | .flushTimerExpiry => Sys2Proof.Machine.execFlushTimerExpiry s
  | .threadedEvent => Sys2Proof.Machine.execThreadedEvent s
  | .paperEndSensor => Sys2Proof.Machine.execPaperEndSensor s
  | .cutterFeedStep seen => Sys2Proof.Machine.execCutterFeedStep seen s
  | .cutCompletion => Sys2Proof.Machine.execCutCompletion s
  | .bladeJam => Sys2Proof.Machine.execBladeJam s
  | .densitometerReading r g b => Sys2Proof.Machine.execDensitometerReading r g b s
  | .dropStart => Sys2Proof.Machine.execDropStart s
  | .dropCompletion => Sys2Proof.Machine.execDropCompletion s
  | .transportJam => Sys2Proof.Machine.execTransportJam s
  | .binSensorEvent b samples => Sys2Proof.Machine.execBinSensorEvent b samples s
  | .idleTimerExpiry => Sys2Proof.Machine.execIdleTimerExpiry s
  | .saveStageCompletion => Sys2Proof.Machine.execSaveStageCompletion s
  | .memoryWriteFault => Sys2Proof.Machine.execMemoryWriteFault s

end Sys2Proof.Machine
end

