-- ==== Sys2Proof/Machine/Step.lean ====
section
/-!
DEFINITION. One step: the command at the front of the queue, or, on an empty queue, the step the part starts of its own
accord (log 1).
-/
namespace Sys2Proof.Machine

/-- What the part does when no command waits: a run start that is due (R99), else a drop start that is due (R133), else
nothing (log 1). -/
def ownStep (s : State) : Host.Outcome State Fault Refusal :=
  if runReady s then exec .exposureRunStart s
  else if dropReady s then exec .dropStart s
  else .next s

/-- One step: the front command of the queue carried out on the part with the queue's rest. -/
def step (s : State) : Host.Outcome State Fault Refusal :=
  match s.pending with
  | c :: rest => exec c (s.setPending rest)
  | [] => ownStep s

/-- The part with the command a word spells at the front of its queue; no word spells one (log 26). -/
def State.withFetchWord (s : State) (nbits w : Nat) : State :=
  match decodeTableWord nbits w with
  | some c => s.setPending (c :: s.pending)
  | none => s

end Sys2Proof.Machine
end

