-- ==== Sys2Proof/Safety.lean ====
section
/-!
DEFINITION. The predicates the statements are written with: what the end of an event keeps (frames), what a request
and an event leave on the Station link, and the invariants of a step.
-/
namespace Sys2Proof.Machine

/-! ### The relation, block by block -/

/-- The kinds of notice that the tests at the end of an event may raise: PAPER_NEEDED in a pass (R41), MAG_EMPTY in a run
test and at a threading (R90, R100), and ORDER_DONE where frames given up return the last copies in flight (R16). -/
def NoticeKind.ofTests (k : NoticeKind) : Bool := k == .paperNeeded || k == .magEmpty || k == .orderDone

/-- LNK: notices of those kinds may be queued behind the others, FETCH frames begun, the idle timer follows; nothing
else. -/
structure LnkKeeps (x y : Lnk) : Prop where
  power          : y.power = x.power
  stationRx      : y.stationRx = x.stationRx
  imageRx        : y.imageRx = x.imageRx
  waiting        : y.waiting = x.waiting
  replies        : y.replies = x.replies
  tx             : y.tx = x.tx
  resetPending   : y.resetPending = x.resetPending
  stationCrc     : y.stationCrc = x.stationCrc
  stationFraming : y.stationFraming = x.stationFraming
  imageCrc       : y.imageCrc = x.imageCrc
  imageFraming   : y.imageFraming = x.imageFraming
  rxOverruns     : y.rxOverruns = x.rxOverruns
  notices        : x.notices.length ≤ 32 → y.notices.length ≤ 32
  raised         : ∃ later, y.notices = x.notices ++ later ∧ ∀ n ∈ later, n.kind.ofTests = true

/-- A line but for what scheduling changes: f and the paper-wait mark. -/
def Line.stable (l : Line) : Line := { l with f := 0, paperWait := false }

/-- An order but for what scheduling and its ending change. -/
def Order.stable (o : Order) : Order :=
  { o with state := .accepted, lines := o.lines.map Line.stable, bins := [], settled := none, priceCapped := false }

/-- ORT: slots keep their orders, and these all but what scheduling and ending change. -/
structure OrtKeeps (x y : Ort) : Prop where
  slots : y.slots.map (Option.map Order.stable) = x.slots.map (Option.map Order.stable)
  seq   : y.seq = x.seq

/-- What an EXPIRED tag holds. -/
def FetchTag.held : FetchTag → Option (FetchInfo × Nat)
  | .expired info t => some (info, t)
  | .free => none
  | .outstanding _ _ _ => none

/-- IFU: quarantines, the current frame and the expiry count stay. -/
structure IfuKeeps (x y : Ifu) : Prop where
  tags     : y.tags.map FetchTag.held = x.tags.map FetchTag.held
  slots    : y.slots.length = x.slots.length
  current  : y.current = x.current
  expiries : y.expiries = x.expiries

/-- A magazine record keeps every field but its state, which may become EMPTY. -/
structure MagKeeps (r q : MagRecord) : Prop where
  fields : { q with state := r.state } = r
  state  : q.state = r.state ∨ q.state = .empty

/-- WEB: the web map, the run and the active magazine stay; a threading may begin, not in FAULT, and the coordinates
move only by one; no flush and no flush timer starts during a run or in FAULT. -/
structure WebKeeps (x y : Web) : Prop where
  map        : y.map = x.map
  run        : y.run = x.run
  active     : y.active = x.active
  magA       : MagKeeps x.magA y.magA
  magB       : MagKeeps x.magB y.magB
  fault      : x.state = .fault → y.state = .fault
  unclearing : y.state = .clearing → x.state = .clearing
  threads    : y.threading = x.threading ∨ (x.threading = none ∧ x.state ≠ .fault)
  coords     : (y.fIn = x.fIn ∧ y.c = x.c) ∨ ((x.map = [] ∨ x.state = .clearing) ∧ y.threading ≠ none)
  runs       : x.run ≠ none ∨ x.state = .fault → x.flush = none → x.flushTimer = none →
    y.flush = none ∧ y.flushTimer = none

/-- CUT: the feed may stop (R112). -/
def CutKeeps (x y : Cut) : Prop := y = x ∨ y = { x with state := x.state.stopFeed }

/-- SRT: only a FREE bin may change, to one ASSIGNED to an order with count 0, its sensor kept (R131). -/
structure SrtKeeps (x y : Srt) : Prop where
  transit   : y.transit = x.transit
  dropping  : y.dropping = x.dropping
  jammed    : y.jammed = x.jammed
  state     : y.state = x.state
  overflow  : y.overflow = x.overflow
  reject    : y.reject = x.reject
  windows   : y.windows = x.windows
  discards  : y.discards = x.discards
  ended     : y.ended = x.ended
  unregDone : y.unregDone = x.unregDone
  sensors   : y.bins.map OrderBin.sensor = x.bins.map OrderBin.sensor
  taken     : ∀ (b : Nat) (r : OrderBin), x.bins[b]? = some r → r.state ≠ .free → y.bins[b]? = some r
  free      : ∀ (b : Nat) (r : OrderBin), x.bins[b]? = some r → r.state = .free →
    y.bins[b]? = some r ∨ ∃ number, y.bins[b]? = some ⟨.assigned, some number, 0, r.sensor⟩

/-- A strip mark may return to NONE (R38), and an AWAITING one may become CREATED (R34). -/
def MarkKeeps (a b : StripMark) : Prop := b = a ∨ b = .none ∨ (a = .awaiting ∧ ∃ f, b = .created f)

/-- SCH: the queue stays within its 16 places (R24), and the strip marks do as `MarkKeeps` says. -/
structure SchKeeps (x y : Sch) : Prop where
  room  : x.queue.length ≤ 16 → y.queue.length ≤ 16
  marks : ∀ m, MarkKeeps (x.mark m) (y.mark m)

/-- What the tests at the end of an event keep of every block but LNK. The ports and the due tests are free. -/
structure Settles (s t : State) : Prop where
  ort     : OrtKeeps s.ort t.ort
  sch     : SchKeeps s.sch t.sch
  ifu     : IfuKeeps s.ifu t.ifu
  exu     : t.exu = s.exu
  web     : WebKeeps s.web t.web
  cut     : CutKeeps s.cut t.cut
  srt     : SrtKeeps s.srt t.srt
  prc     : t.prc = s.prc
  set     : t.set = s.set
  free    : t.free = s.free
  pending : t.pending = s.pending

/-- What the tests at the end of an event keep of every block. -/
structure Keeps (s t : State) : Prop extends Settles s t where
  lnk : LnkKeeps s.lnk t.lnk

/-- The exposure queue without the frames that satisfy `p`: a committed head among them is committed no longer (R36,
R38). -/
def State.without (p : Frame → Bool) (s : State) : State :=
  s.setSch { s.sch with
    queue := s.sch.queue.filter fun f => !p f
    committed := s.sch.committed && !((committedHead s).map p).getD false }

/-- What the tests at the end of an event keep of the exposure queue: the frames of a magazine that is not found EMPTY
stay, in their order, and their committed head stays the committed head (R36, R38, R39). -/
structure QueueKeeps (s t : State) : Prop where
  order : (s.sch.queue.filter fun f => (t.web.mag f.mag).state != .empty).Sublist t.sch.queue
  head  : ∀ f, committedHead s = some f → (t.web.mag f.mag).state ≠ .empty → committedHead t = some f

/-! ### Supplies given up -/

/-- The frame a line slot serves. -/
def LineSlot.owner : LineSlot → Option Nat
  | .empty => none
  | .awaited frame _ _ _ _ => some frame
  | .filled frame _ _ _ _ => some frame

/-- IFU has given up the supply of frame `n`: each OUTSTANDING tag of it has the discard mark and keeps its timer, and no
slot serves it, unless its number is one of a frame supplied afterwards (R73, R74). -/
structure SupplyGone (n : Nat) (s t : State) : Prop where
  tags  : ∀ (i : Nat) (info : FetchInfo) (slot timer : Option Nat),
    s.ifu.tags[i]? = some (.outstanding info slot timer) → info.frame = n →
    t.ifu.tags[i]? = some (.outstanding info none timer)
  slots : ∀ x ∈ t.ifu.slots, x.owner = some n →
    (∃ f ∈ t.sch.queue, f.number = n) ∨ ∃ c, t.ifu.current = some c ∧ c.frame = n

/-- The committed head `h` has left the queue without a run: its supply is given up, and no print is primed (R72, R74). -/
structure HeadGone (h : Frame) (s t : State) : Prop extends SupplyGone h.number s t where
  primed : t.ifu.primed = true → ∃ f rest, t.sch.queue = f :: rest ∧ f.isStrip = true

/-- IFU has ended the supply of its current frame `c` (R73). -/
structure CurrentGone (c : Current) (s t : State) : Prop extends SupplyGone c.frame s t where
  current : t.ifu.current = none

/-! ### Changes of LNK alone -/

/-- Nothing changes but LNK, the ports and the due tests. -/
def OnlyLink (s t : State) : Prop := t = { s with lnk := t.lnk, ports := t.ports, due := t.due }

/-- What LNK keeps while a frame is queued, begun or finished: power state, framers, waiting requests, the scheduled
reset and the counts. -/
structure LinkSame (s t : State) : Prop where
  power          : t.lnk.power = s.lnk.power
  stationRx      : t.lnk.stationRx = s.lnk.stationRx
  imageRx        : t.lnk.imageRx = s.lnk.imageRx
  waiting        : t.lnk.waiting = s.lnk.waiting
  resetPending   : t.lnk.resetPending = s.lnk.resetPending
  stationCrc     : t.lnk.stationCrc = s.lnk.stationCrc
  stationFraming : t.lnk.stationFraming = s.lnk.stationFraming
  imageCrc       : t.lnk.imageCrc = s.lnk.imageCrc
  imageFraming   : t.lnk.imageFraming = s.lnk.imageFraming
  rxOverruns     : t.lnk.rxOverruns = s.lnk.rxOverruns

/-- The frames still to be sent whole before any notice: the frame being sent, then the replies. -/
def outgoing (s : State) : List OutFrame := s.lnk.tx.toList ++ s.lnk.replies

/-- One reply is queued behind those that wait, and nothing else (R173, R178). -/
def Replies (s t : State) (f : OutFrame) : Prop := outgoing t = outgoing s ++ [f]

/-- A request is answered: one reply is queued, LNK's other parts are kept. -/
def Answered (s t : State) (f : OutFrame) : Prop := LinkSame s t ∧ Replies s t f

/-- A reply frame to a request of this kind and tag (R171); `resetReply` marks that of a RESET. -/
def replyTo (kind tag : Byte) (body : List Byte) : OutFrame := ⟨replyKind kind, tag, body, kind == 0x3C#8⟩

/-! ### The notices an event raises -/

/-- Every notice raised is queued, and none is begun: a frame is being sent, there is room for 8 notices, and no kind has
priority 0 (R177, R178). -/
structure Audible (s : State) : Prop where
  sending : s.lnk.tx ≠ none
  room    : s.lnk.notices.length ≤ 24
  enabled : ∀ k : NoticeKind, s.set.settings.noticePriorities.getD k.index 0 ≠ 0

/-- The notices queued in `t` behind those of `s`, each with its kind and body. -/
def NoticesAdded (s t : State) (xs : List (NoticeKind × List Byte)) : Prop :=
  ∃ new, t.lnk.notices = s.lnk.notices ++ new ∧ new.map (fun n => (n.kind, n.body)) = xs

/-- These notices are raised, in this order, and behind them none but those of the tests at the end of the event. -/
def Raises (s t : State) (xs : List (NoticeKind × List Byte)) : Prop :=
  Audible s → ∃ later, NoticesAdded s t (xs ++ later) ∧ ∀ x ∈ later, x.1.ofTests = true

/-- These notices are raised first, in this order. -/
def RaisesFirst (s t : State) (xs : List (NoticeKind × List Byte)) : Prop :=
  Audible s → ∃ later, NoticesAdded s t (xs ++ later)

/-- This notice is raised, among others. -/
def RaisesAmong (s t : State) (x : NoticeKind × List Byte) : Prop :=
  Audible s → ∃ before later, NoticesAdded s t (before ++ x :: later)

/-- This notice is raised directly behind the notices of the state `u`, which has those of `s` and of what the event does
before it, and behind it none but those of the tests at the end of the event. -/
def RaisesBehind (s u t : State) (x : NoticeKind × List Byte) : Prop :=
  Audible s → ∃ later, NoticesAdded u t (x :: later) ∧ ∀ y ∈ later, y.1.ofTests = true

/-- MAG_LOW of a magazine whose remaining length becomes `n`: sent below the low mark, once until it is reported no longer
(R88). -/
def magLowNotice (s : State) (m : Mag) (reported : Bool) (n : Nat) : List (NoticeKind × List Byte) :=
  if n < s.set.settings.lowMark ∧ reported = false then [(.magLow, le1 m.code ++ le4 n)] else []

/-- CAL_RESULT of a piece's strip: outcome, three readings, three indices with 0xFF for none (log 36), the three offsets, and
the clamp flags (R62, R183). -/
def calNotice (p : Piece) (outcome : Nat) (readings : List Nat) (indices : List (Option Nat)) (offsets : RGB Int)
    (clamped : Nat) : NoticeKind × List Byte :=
  (.calResult, le1 p.frame.mag.code ++ le2 p.frame.number ++ le1 outcome ++ readings.flatMap le2 ++
    indices.flatMap (fun i => le1 (i.getD 0xFF)) ++ le2s offsets.r ++ le2s offsets.g ++ le2s offsets.b ++ le1 clamped)

/-- CAL_RESULT UNREADABLE of a strip that leaves the transit queue without a reading (R62, R124; the code of an absent
reading: log 6). -/
def unreadNotice (s : State) (p : Piece) : List (NoticeKind × List Byte) :=
  if p.frame.isStrip = true ∧ p.reading ≠ .taken then
    [calNotice p 1 (List.replicate 3 (Config.openCode .reading)) [none, none, none] (s.web.mag p.frame.mag).offsets 0]
  else []

/-- FRAME_LOST of a loss report: the outcome is decided from the line as the report finds it, and the counts are those the
report leaves (R159, R160, R162). None for a report whose order is no longer in its slot (R1). -/
def lossNotice (rep : LossReport) (s : State) : List (NoticeKind × List Byte) :=
  match s.orderAt rep.ref.slot rep.ref.number with
  | some o =>
    match o.line rep.ref.line with
    | some l =>
      let outcome := (decideLoss rep.cause s.set.settings.remakeLimit o l).1
      [(.frameLost, frameLostBody rep outcome (l.lose outcome))]
    | none => []
  | none => []

/-- An event that takes the report in the state `s` ends in `t`: ORT has accounted for the loss with the report's cause, and
FRAME_LOST is among the notices raised since (R158 to R162). -/
structure LossTaken (rep : LossReport) (s t : State) : Prop where
  account : OrtKeeps (accountLoss rep s).ort t.ort
  notice  : ∀ x ∈ lossNotice rep s, RaisesAmong s t x

/-! ### The states statements start from -/

/-- LNK carries out a request as it arrives: ACTIVE, none waits, a reply fits, no reset is scheduled (R173, R174,
R180). -/
structure Takes (s : State) : Prop where
  active  : s.lnk.power = .active
  waiting : s.lnk.waiting = []
  room    : s.lnk.replies.length < 4
  noReset : s.lnk.resetPending = false

/-- No request waits, or none can be carried out before the frame being sent is finished: replies fill the queue, or a
reset is scheduled (R173, R180). Every step leaves the part so: see `LinkSteady`. -/
def Undisturbed (s : State) : Prop :=
  s.lnk.waiting = [] ∨ (s.lnk.tx ≠ none ∧ (s.lnk.resetPending = true ∨ 4 ≤ s.lnk.replies.length))

/-- The part as a request finds it: nothing driven, no test due, the idle timer seen to. -/
def asAsked (s : State) : State := idleService (begin s)

/-- The request a command brings: kind, tag, body (R183). -/
def requestOf : Instr → Option (Byte × Byte × List Byte)
  | .orderSubmit tag body => some (0x01, tag, body)
  | .orderQuery tag body => some (0x02, tag, body)
  | .orderCancel tag body => some (0x03, tag, body)
  | .orderPriority tag body => some (0x04, tag, body)
  | .orderCollect tag body => some (0x05, tag, body)
  | .magLoad tag body => some (0x10, tag, body)
  | .magUnload tag body => some (0x11, tag, body)
  | .calibrate tag body => some (0x12, tag, body)
  | .sizeWrite tag body => some (0x20, tag, body)
  | .sizeRead tag body => some (0x21, tag, body)
  | .profileWrite tag body => some (0x22, tag, body)
  | .profileRead tag body => some (0x23, tag, body)
  | .ladderWrite tag body => some (0x24, tag, body)
  | .ladderRead tag body => some (0x25, tag, body)
  | .priceWrite tag body => some (0x26, tag, body)
  | .priceRead tag body => some (0x27, tag, body)
  | .windowWrite tag body => some (0x28, tag, body)
  | .windowRead tag body => some (0x29, tag, body)
  | .settingWrite tag body => some (0x30, tag, body)
  | .settingRead tag body => some (0x31, tag, body)
  | .settingsSave tag body => some (0x32, tag, body)
  | .status tag body => some (0x38, tag, body)
  | .pathClear tag body => some (0x39, tag, body)
  | .sorterResume tag body => some (0x3A, tag, body)
  | .headReset tag body => some (0x3B, tag, body)
  | .reset tag body => some (0x3C, tag, body)
  | .pathClearButton | .resetTakesEffect | .powerOnReset | .stationFrameReceived _ | .imageFrameReceived _
  | .frameGapTimeout _ | .transmitComplete | .fetchSent | .fetchTimeout _ | .quarantineExpiry _ | .warmUpCompletion
  | .headFaultEvent | .exposureRunStart | .exposureFeedStep | .flushTimerExpiry | .threadedEvent | .paperEndSensor
  | .cutterFeedStep _ | .cutCompletion | .bladeJam | .densitometerReading _ _ _ | .dropStart | .dropCompletion
  | .transportJam | .binSensorEvent _ _ | .idleTimerExpiry | .saveStageCompletion | .memoryWriteFault => none

/-! ### Bytes through a framer -/

/-- The framer after a sequence of bytes, with what the bytes brought about, in order (R172). -/
def feedAll (max : Nat) : Framer → List Byte → Framer × List FrameEvent
  | fr, [] => (fr, [])
  | fr, b :: bs =>
    let x := fr.feed max b
    let y := feedAll max x.1 bs
    (y.1, if x.2 = .nothing then y.2 else x.2 :: y.2)

/-! ### Invariants of a step -/

/-- LNK between steps: two requests, four replies and 32 notices at most (R173, R177); a request waits only where none
can be carried out; an idle transmitter leaves nothing unsent (R178); a scheduled reset has its reply still to be sent
(R180). -/
structure LinkSteady (s : State) : Prop where
  waiting : s.lnk.waiting.length ≤ 2
  replies : s.lnk.replies.length ≤ 4
  notices : s.lnk.notices.length ≤ 32
  steady  : Undisturbed s
  idle    : s.lnk.tx = none → s.lnk.replies = [] ∧ s.lnk.notices = []
  reset   : s.lnk.resetPending = true → ∃ f ∈ outgoing s, f.resetReply = true

/-- The sizes the spec gives: 64 order slots (R1), 16 places in the exposure queue (R24), 64 line slots (R66), eight
fetch tags (R67), 32 places on the web map (R97), 24 order bins (R125). -/
structure Sized (s : State) : Prop where
  slots : s.ort.slots.length = 64
  queue : s.sch.queue.length ≤ 16
  lines : s.ifu.slots.length = 64
  tags  : s.ifu.tags.length = 8
  map   : s.web.map.length ≤ 32
  bins  : s.srt.bins.length = 24

/-- Every setting has one of its values (R184). -/
def Settings.legal (x : Settings) : Prop :=
  x.noticePriorities.length = 18 ∧ ∀ id v, x.get id = some v → settingAllows id v = some true

/-- A ladder of 16 thresholds and 16 steps, in range (R47). -/
def Ladder.legal (l : Ladder) : Prop := l.thresholds.length = 16 ∧ l.steps.length = 16 ∧ l.inRange = true

/-- Settings and tables with every value in its range (R44 to R47, R129, R130, R143, R145, R184). -/
structure SettingsImage.legal (x : SettingsImage) : Prop where
  settings : x.settings.legal
  sizes    : x.sizes.length = 16 ∧ ∀ e ∈ x.sizes, e.inRange = true
  profiles : x.profiles.length = 8 ∧ ∀ p ∈ x.profiles, p.all (fun b => decide (b ≤ 4095)) = true
  ladder   : x.ladder.legal
  prices   : x.prices.length = 48 ∧ ∀ e ∈ x.prices, e.inRange = true
  windows  : x.windows.length = 8 ∧ ∀ w ∈ x.windows, w.inRange = true

/-- The live values, the stored image and an image being saved are legal: a write out of range is refused, and what is
loaded at power-on was written so (R185, R186, R187). -/
structure ValuesLegal (s : State) : Prop where
  live   : (liveImage s).legal
  stored : s.set.memory.image.legal
  saving : ∀ job, s.set.save = some job → job.image.legal

/-- The prints in flight: those queued, and the live ones on the web map and in transit (R4). -/
def inFlightRefs (s : State) : List PrintRef :=
  s.sch.queue.filterMap Frame.ref ++
    ((s.web.map.map WebEntry.frame ++ s.srt.transit.map Piece.frame).filter Frame.live).filterMap Frame.ref

/-- The numbers of the frames whose records are held (R26). -/
def heldNumbers (s : State) : List Nat :=
  s.sch.queue.map Frame.number ++ s.web.map.map (fun e => e.frame.number) ++ s.srt.transit.map fun p => p.frame.number

/-- The copies of an order by its state: nothing delivered or in flight while ACCEPTED (R13), all delivered exactly when
COMPLETE (R15), none in flight once FAILED and some while FAILING (R14, R16); settled on what was delivered exactly when it
has ended (R153). -/
def Order.accountsFor (o : Order) : Prop :=
  match o.state with
  | .accepted => (∀ l ∈ o.lines, l.d = 0 ∧ l.f = 0) ∧ o.settled = none
  | .active => (∃ l ∈ o.lines, l.d ≠ l.n) ∧ o.settled = none
  | .complete => (∀ l ∈ o.lines, l.d = l.n) ∧ o.settled = some (priceTotal o Line.d)
  | .failing => (∃ l ∈ o.lines, l.f ≠ 0) ∧ o.settled = none
  | .failed => (∀ l ∈ o.lines, l.f = 0) ∧ o.settled = some (priceTotal o Line.d)

/-- ORT's books: order numbers and frame numbers are unique, a queued print is live, every print in flight is one of a
line of an order, f counts those of its line, d + f never exceeds n, and each order's copies agree with its state (R1, R4,
R7, R13 to R16, R26). -/
structure Accounts (s : State) : Prop where
  orders : ∀ (i j : Nat) (o o' : Order), s.ort.slots[i]? = some (some o) → s.ort.slots[j]? = some (some o') →
    o.number = o'.number → i = j
  frames : (heldNumbers s).Nodup
  queued : ∀ f ∈ s.sch.queue, f.isStrip = false → f.live = true
  placed : ∀ r ∈ inFlightRefs s, ∃ o l, s.orderAt r.slot r.number = some o ∧ o.line r.line = some l
  counts : ∀ (slot i : Nat) (o : Order) (l : Line), s.ort.slots[slot]? = some (some o) → o.line i = some l →
    l.f = countWhere (fun r => r.slot == slot && r.number == o.number && r.line == i) (inFlightRefs s) ∧ l.d + l.f ≤ l.n
  states : ∀ (slot : Nat) (o : Order), s.ort.slots[slot]? = some (some o) → o.accountsFor

/-- The exposure queue is ordered: behind the committed head and the strips at the front stand prints alone, none before
one that precedes it by magazine group, priority, intake sequence, line index or copy number (R25). With it what keeps the
magazine groups in agreement with the active magazine through a changeover (R40, R90, R92, R93): the queue is empty without
an active magazine, a changeover not yet asked leads away from the active magazine, and one that is asked is the ask WEB
holds, with frames for its target alone in the queue. -/
structure QueueOrdered (s : State) : Prop where
  sorted   : (s.sch.queue.drop (fixedCount s.sch.committed s.sch.queue)).Pairwise
    fun f g => lexLt (frameKey s g) (frameKey s f) = false
  prints   : ∀ f ∈ s.sch.queue.drop (fixedCount s.sch.committed s.sch.queue), f.isStrip = false
  head     : s.sch.committed = true → s.sch.queue ≠ []
  inactive : s.web.active = none → s.sch.queue = []
  threads  : ∀ m, s.web.threading = some m → s.web.active = some m ∨ s.web.active = none ∨ s.web.ask = some m
  pending  : ∀ m, s.sch.changeover = .pending m → s.web.active = some m.other
  asked    : ∀ m, s.web.ask = some m ↔ s.sch.changeover = .asked m
  target   : ∀ m, s.sch.changeover = .asked m → ∀ f ∈ s.sch.queue, f.mag = m

/-- The bins, the drop and the transit queue: no bin above its capacity, an ASSIGNED bin below it and a FULL one at it, a
holding bin FULL exactly at its capacity, RUN only with both OPEN, at most four bins to an order; the piece being dropped is
routed to a bin with room for it, and a jammed piece is the dead head of a sorter in FAULT; at most four pieces in transit,
and room there for a trailing cut under way (R22, R113, R123, R125, R126, R133, R137, R138). -/
structure SorterSound (s : State) : Prop where
  counts   : ∀ x ∈ s.srt.bins, x.count ≤ s.set.settings.binCapacity
  assigned : ∀ x ∈ s.srt.bins, x.state = .assigned → x.count < s.set.settings.binCapacity
  full     : ∀ x ∈ s.srt.bins, x.state = .full → x.count = s.set.settings.binCapacity
  overflow : s.srt.overflow.count ≤ s.set.settings.overflowCapacity ∧
    (s.srt.overflow.full = true ↔ s.srt.overflow.count = s.set.settings.overflowCapacity)
  reject   : s.srt.reject.count ≤ s.set.settings.rejectCapacity ∧
    (s.srt.reject.full = true ↔ s.srt.reject.count = s.set.settings.rejectCapacity)
  running  : s.srt.state = .run → s.srt.overflow.full = false ∧ s.srt.reject.full = false
  lists    : ∀ (slot : Nat) (o : Order), s.ort.slots[slot]? = some (some o) → o.bins.length ≤ 4
  dropping : s.srt.dropping = true → ∃ p rest b, s.srt.transit = p :: rest ∧ p.routed = some b ∧ b ≤ 25 ∧
    (∀ x, s.srt.bins[b]? = some x → x.count < s.set.settings.binCapacity) ∧
    (b = 24 → s.srt.overflow.count < s.set.settings.overflowCapacity) ∧
    (b = 25 → s.srt.reject.count < s.set.settings.rejectCapacity)
  jammed   : s.srt.jammed = true → s.srt.state = .fault ∧ s.srt.dropping = false ∧
    ∃ p rest, s.srt.transit = p :: rest ∧ p.frame.live = false
  transit  : s.srt.transit.length ≤ 4
  cutting  : s.cut.state = .cutting → ∀ x, s.cut.nextCut = some x → x.kind = .trailing → s.srt.transit.length < 4

/-- The steps a run in progress has still to make (R102). -/
def Run.left (r : Run) : Nat := r.lf + r.gap - r.step

/-- The steps of the run in progress still to come, 0 without one. -/
def runLeft (s : State) : Nat := (s.web.run.map Run.left).getD 0

/-- The loop of a threaded web lies within 0..loop_max, with the room a run in progress has still to use; a run is in
progress only on a threaded web, short of its end (R96, R99, R102, R105). -/
structure LoopBounded (s : State) : Prop where
  bounds  : webThreaded s = true → 0 ≤ s.loop ∧ s.loop + runLeft s ≤ s.set.settings.loopMax
  run     : ∀ r, s.web.run = some r → r.step < r.lf + r.gap ∧ webThreaded s = true
  lengths : ∀ f ∈ s.sch.queue, 0 < f.lf

/-- The web map law: entries in order of start, none overlapping, all of the active magazine, none beyond F_in but the one
whose run is in progress, or was ended by a paper end (R97, R103). That one is the newest, at F_in less the steps it has
made; it alone is EXPOSING, and its mark alone PENDING, short of the mark step (R98, R102). An entry stands only on a threaded
web whose feeder is not commanded; the flush timer runs only while R104 has it armed. The gaps lie within those of the size
table and of a strip (R27, R44). -/
structure WebMapSound (s : State) : Prop where
  ordered  : s.web.map.Pairwise fun e f => e.start + e.frame.lf + e.frame.gap ≤ f.start
  within   : ∀ e ∈ s.web.map, e.start ≤ s.web.fIn
  fed      : s.web.run = none → s.web.state ≠ .fault →
    ∀ e ∈ s.web.map, e.start + e.frame.lf + e.frame.gap ≤ s.web.fIn
  running  : ∀ r, s.web.run = some r → ∃ e, s.web.newest = some e ∧ e.frame.lf = r.lf ∧ e.frame.gap = r.gap ∧
    s.web.fIn = e.start + r.step
  magazine : ∀ e ∈ s.web.map, s.web.active = some e.frame.mag
  threaded : s.web.map ≠ [] →
    s.web.threading = none ∧ (s.web.state = .ready ∨ s.web.state = .changeover ∨ s.web.state = .fault)
  ready    : s.web.state = .ready → s.web.threading = none
  marks    : ∀ e ∈ s.web.map, e.markCoord =
    if 10 ≤ e.frame.gap then some (e.start + e.frame.lf + e.frame.gap / 2) else none
  exposing : ∀ e ∈ s.web.map, e.webState = .exposing → s.web.run ≠ none ∧ s.web.newest = some e
  pending  : ∀ e ∈ s.web.map, e.mark = .pending → 10 ≤ e.frame.gap ∧ s.web.newest = some e ∧
    ∃ r, s.web.run = some r ∧ r.step ≤ r.lf + r.gap / 2
  timer    : s.web.flushTimer ≠ none → s.web.state = .ready ∧ s.web.run = none ∧ s.web.flush = none ∧
    ∃ e, s.web.newest = some e ∧
      s.web.fIn < e.start + e.frame.lf + e.frame.gap + s.set.settings.markWindow + s.set.settings.pathFixed
  gaps     : (∀ f ∈ s.sch.queue, f.gap ≤ 200) ∧ ∀ e ∈ s.web.map, e.frame.gap ≤ 200

/-- CUT's records: one gap record for each web map entry, in its order and with its fields; an offset exactly on a decided
record; the registration offset and every gap offset within −100..+100, the miss count within 0..3 and 3 in FAULT alone; the
search of the oldest OPEN record begun (R108, R114 to R116). The next cut is that of the oldest entry: its trailing cut once
its leading edge is made, which leaves no carried record, and its leading cut before; its target is its nominal coordinate
plus the offset of the record it uses, or the registration offset while that is OPEN; outside FAULT there is one for every web
map that is not empty (R110, R111). A cutter that feeds has its target ahead of C, one that holds or cuts has it at or
behind C; it feeds and holds with the web READY or CHANGEOVER alone (R109, R112, R113). -/
structure CutterSound (s : State) : Prop where
  records  : s.cut.gaps.map (fun g => (g.frame, g.gapStart, g.gap, g.markCoord)) =
    s.web.map.map fun e => (e.frame.number, e.start + e.frame.lf, e.frame.gap, e.markCoord)
  decided  : ∀ g ∈ gapsInOrder s, (g.offset = none ↔ g.decision = .undecided) ∧
    (∀ o, g.offset = some o → -100 ≤ o ∧ o ≤ 100) ∧ ∀ w, g.window = some w → w ≤ 100
  searched : ∀ g, openGap s = some g → g.window ≠ none
  offset   : -100 ≤ s.cut.offset ∧ s.cut.offset ≤ 100
  misses   : s.cut.missCount ≤ 3 ∧ (s.cut.missCount = 3 → s.cut.state = .fault)
  edge     : s.cut.leadingMade = true → s.cut.carried = none ∧ s.web.map ≠ []
  oldest   : ∀ x, s.cut.nextCut = some x → ∃ e rest, s.web.map = e :: rest ∧ x.frame = e.frame.number ∧
    (s.cut.leadingMade = true → x.kind = .trailing ∧ x.nominal = e.start + e.frame.lf) ∧
    (s.cut.leadingMade = false → x.kind = .leading ∧ x.nominal = e.start)
  target   : ∀ x, s.cut.nextCut = some x → ((x.nominal : Int) - 100 ≤ x.target ∧ x.target ≤ x.nominal + 100) ∧
    ∀ g, cutRecord s x.kind x.frame = some g → x.target = (x.nominal : Int) + g.offset.getD s.cut.offset
  chosen   : s.cut.state ≠ .fault → s.web.map ≠ [] → s.cut.nextCut ≠ none
  feeding  : s.cut.state = .feeding → s.web.state.feeds = true ∧ ∃ x, s.cut.nextCut = some x ∧ (s.web.c : Int) < x.target
  held     : s.cut.state = .hold → s.web.state.feeds = true ∧
    ∃ x, s.cut.nextCut = some x ∧ x.kind = .trailing ∧ x.target ≤ s.web.c
  cutting  : s.cut.state = .cutting → ∃ x, s.cut.nextCut = some x ∧ x.target ≤ s.web.c

/-- The line store and the fetch tags agree: an AWAITED slot with a tag and that OUTSTANDING tag name each other, their
frame and their row; FETCH frames wait for OUTSTANDING tags only, one for each, at most 8, and no fetch timer runs before
its FETCH is sent (R66, R67, R71, R181). -/
structure FetchesSteady (s : State) : Prop where
  slots   : ∀ (i f first last row t : Nat), s.ifu.slots[i]? = some (.awaited f first last row (some t)) →
    ∃ info timer, s.ifu.tags[t]? = some (.outstanding info (some i) timer) ∧ info.frame = f ∧ info.row = row
  tags    : ∀ (t i : Nat) (info : FetchInfo) (timer : Option Nat),
    s.ifu.tags[t]? = some (.outstanding info (some i) timer) →
    ∃ first last, s.ifu.slots[i]? = some (.awaited info.frame first last info.row (some t))
  waiting : ∀ f ∈ s.lnk.imageWaiting, ∃ info slot, s.ifu.tags[f.tag]? = some (.outstanding info slot none)
  single  : (s.lnk.imageWaiting.map FetchFrame.tag).Nodup
  atMost  : s.lnk.imageWaiting.length ≤ 8

/-- The line store is that of IFU's two supply frames: a slot in use serves the current frame or the committed head, and no
other frame. The current frame is that of the run in progress, up to its last line; a primed head is a committed one (R69,
R72). -/
structure SupplySound (s : State) : Prop where
  owners  : ∀ x ∈ s.ifu.slots, ∀ n, x.owner = some n →
    (∃ c, s.ifu.current = some c ∧ c.frame = n) ∨ ∃ h, committedHead s = some h ∧ h.number = n
  current : ∀ c, s.ifu.current = some c → ∃ r e, s.web.run = some r ∧ s.web.newest = some e ∧ e.frame.number = c.frame ∧
    r.lf = c.lf ∧ r.step = c.next ∧ c.next < c.lf
  primed  : s.ifu.primed = true → s.sch.committed = true

/-! ### Values read off a state -/

/-- A web map entry but for its frame's unregistered flag, which CUT sets (R111). -/
def WebEntry.unflagged (e : WebEntry) : WebEntry := { e with frame := { e.frame with unregistered := false } }

/-- A gap record but for the mark window, which is read when its search begins (R114). -/
def GapRecord.unsearched (g : GapRecord) : GapRecord := { g with window := none }

/-- A sensor after a sequence of samples (R127). -/
def Sensor.after (x : Sensor) (samples : List Occupancy) : Sensor := samples.foldl (fun x v => (x.sample v).1) x

/-- The loss reports of a path clearing: the live prints of the web map, oldest first, then those in transit, head first (R158,
R168; that order: log 18). -/
def pathLosses (s : State) : List LossReport :=
  let report := fun (held : HeldIn) (f : Frame) =>
    if f.live then f.ref.map fun r => (⟨f, r, .pathClear, held, none⟩ : LossReport) else none
  s.web.map.filterMap (fun e => report .webMap e.frame) ++ s.srt.transit.filterMap fun p => report .transit p.frame

/-- The strips a path clearing removes without an outcome: those of the web map, and those in transit whose reading is not
taken (R34, R168). -/
def pathStrips (s : State) : List Frame :=
  (s.web.map.map WebEntry.frame ++ (s.srt.transit.filter fun p => p.reading != .taken).map Piece.frame).filter Frame.isStrip

/-- The delivered count d of a line of the order that a slot and number name. -/
def deliveredOf (s : State) (slot number line : Nat) : Option Nat :=
  ((s.orderAt slot number).bind fun o => o.line line).map Line.d

end Sys2Proof.Machine
end

