-- ==== Sys2Proof/Certificates/Slice0/Obligations.lean ====
section
/-!
DEFINITION. The statements for the provers. Requests are stated from `Takes s` (LNK carries a request out as it arrives),
events from `Undisturbed s` (no waiting request is carried out at the end of the event); both are predicates of Safety.lean.
`Settles` and `OnlyLink` say what everything else keeps.
-/
section Statements

open Sys2Proof Sys2Proof.Machine

/-! ### Steps -/

/-- A step carries out the command at the front of the queue on the part with the queue's rest. -/
def Obligations.StepTakesFrontCommand : Prop :=
  ∀ (c : Instr) (rest : List Instr) (s : State), s.pending = c :: rest → step s = exec c (s.setPending rest)

/-- With no command waiting the part starts a run that is due, else a drop that is due, else nothing (the model's
choice, log 1; the conditions are R99 and R133). -/
def Obligations.StepOnEmptyQueue : Prop :=
  ∀ s : State, s.pending = [] →
    (runReady s = true → step s = exec .exposureRunStart s) ∧
    (runReady s = false → dropReady s = true → step s = exec .dropStart s) ∧
    (runReady s = false → dropReady s = false → step s = .next s)

/-- Every command answers a next state, and leaves the queue of waiting commands as it was (the queue is the model's own,
log 26; that POWER_ON_RESET leaves it too is the model's choice, log 24). -/
def Obligations.EveryCommandCompletes : Prop :=
  ∀ (c : Instr) (s : State), ∃ t, exec c s = .next t ∧ t.pending = s.pending

/-- The values the spec gives for power-on reset (R23, R43, R58, R84, R107, R121, R141, R182, R187) and, without a
format marker in the settings memory (the model's choice of its content, log 7), the defaults of R48, R157, R184, the
settings one by one. -/
def Obligations.ResetState : Prop :=
  let s := State.reset
  (s.ort.slots = List.replicate 64 none ∧ s.ort.seq = 0) ∧
  (s.sch.queue = [] ∧ s.sch.changeover = .clear ∧ s.sch.markA = .none ∧ s.sch.markB = .none ∧ s.sch.counter = 0) ∧
  (s.exu.head = .warming ∧ s.exu.profiles = List.replicate 8 ⟨2048, 2048, 2048⟩ ∧
    s.exu.sizes = List.replicate 16 ⟨false, 89, 400, 0, 0⟩ ∧
    s.exu.ladder.thresholds = [32, 96, 160, 224, 288, 352, 416, 480, 544, 608, 672, 736, 800, 864, 928, 992] ∧
    s.exu.ladder.steps = [112, 96, 80, 64, 48, 32, 16, 0, -16, -32, -48, -64, -80, -96, -112, -128]) ∧
  (s.ifu.slots = List.replicate 64 .empty ∧ s.ifu.tags = List.replicate 8 .free ∧ s.ifu.current = none ∧
    s.ifu.expiries = 0) ∧
  (s.web.magA = s.web.magB ∧ s.web.magA = ⟨.absent, 89, .gloss, 0, 0, ⟨0, 0, 0⟩, ⟨none, none, none⟩, false⟩ ∧
    s.web.active = none ∧ s.web.threading = none ∧ s.web.ask = none ∧ s.web.state = .unthreaded ∧
    s.web.fIn = 0 ∧ s.web.c = 0 ∧ s.web.map = [] ∧ s.web.flushTimer = none ∧ s.web.flush = none) ∧
  (s.cut.state = .idle ∧ s.cut.offset = 0 ∧ s.cut.missCount = 0 ∧ s.cut.nextCut = none ∧ s.cut.gaps = [] ∧
    s.cut.carried = none ∧ s.cut.leadingMade = false ∧ s.cut.markRun = 0 ∧ s.cut.abandoned = 0) ∧
  (s.srt.transit = [] ∧ s.srt.dropping = false ∧ s.srt.jammed = false ∧ s.srt.state = .run ∧ s.srt.bins.length = 24 ∧
    (∀ b ∈ s.srt.bins, b.state = .free ∧ b.owner = none ∧ b.count = 0 ∧ b.sensor.filtered = none) ∧
    s.srt.overflow.full = false ∧ s.srt.overflow.count = 0 ∧ s.srt.reject.full = false ∧ s.srt.reject.count = 0 ∧
    (∀ w ∈ s.srt.windows, w.enabled = false) ∧ s.srt.discards = 0 ∧ s.srt.ended = 0 ∧ s.srt.unregDone = 0) ∧
  (s.prc.prices = List.replicate 48 ⟨false, 0, ⟨0, 0⟩, ⟨0, 0⟩, ⟨0, 0⟩⟩) ∧
  (s.set.settings = {
      calibrationRequired := 1, calibrateOnLoad := 1, changeoverPriority := 12, densityStep := 25, colourStep := 15,
      linePeriod := 20000, readAhead := 32, fetchTimeout := 40, pathFixed := 4200, loopMax := 3000, lowMark := 50000,
      flushDelay := 20, markWindow := 15, markOffset := 300, binCapacity := 50, overflowCapacity := 100,
      rejectCapacity := 100, surcharge := 25, roundingUnit := 5, remakeLimit := 3, idleTimer := 30,
      noticePriorities := [10, 8, 6, 9, 7, 9, 10, 4, 5, 12, 12, 11, 6, 7, 12, 3, 2, 8] } ∧
    s.set.settings = Settings.default ∧ s.set.save = none ∧ s.set.outcome = .none) ∧
  (s.lnk.power = .waking ∧ s.lnk.stationRx.phase = .hunt ∧ s.lnk.imageRx.phase = .hunt ∧ s.lnk.waiting = [] ∧
    s.lnk.replies = [] ∧ s.lnk.notices = [] ∧ s.lnk.overrun = false ∧ s.lnk.stationCrc = 0 ∧
    s.lnk.stationFraming = 0 ∧ s.lnk.imageCrc = 0 ∧ s.lnk.imageFraming = 0 ∧ s.lnk.rxOverruns = 0) ∧
  s.pending = []

/-! ### Requests in general -/

/-- A request of the right length is carried out by its owner as it arrives: its reply is queued, and the owner's effect
stands but for what the tests it calls for may change (R173, R174). All 26 requests. -/
def Obligations.RequestReachesItsOwner : Prop :=
  ∀ (c : Instr) (kind tag : Byte) (body : List Byte) (s : State),
    requestOf c = some (kind, tag, body) → c.wf = true → Takes s → lengthFits kind.toNat body = true →
    ∃ t, exec c s = .next t ∧
      Replies s t (replyTo kind tag (ownerAnswer kind.toNat body (asAsked s)).2) ∧
      Settles (ownerAnswer kind.toNat body (asAsked s)).1 t

/-- A request of another length than its kind has is answered BAD_FORMAT, and in standby and waking every request is
answered WAKING, the first one in standby starting the warm-up; neither has another effect. The length of each kind is
that of the kind table: any for ORDER_SUBMIT, whose length ORT checks, and none fits a kind of no request (R174, R176, R183,
R189). -/
def Obligations.RequestNotCarriedOut : Prop :=
  (∀ (kind : Nat) (body : List Byte), lengthFits kind body = true ↔ kind = 0x01 ∨
    (kind ∈ [0x25, 0x32, 0x38, 0x39, 0x3A, 0x3B, 0x3C] ∧ body.length = 0) ∨
    (kind ∈ [0x11, 0x12, 0x21, 0x23, 0x29, 0x31] ∧ body.length = 1) ∨ (kind = 0x27 ∧ body.length = 2) ∨
    (kind ∈ [0x02, 0x03, 0x05] ∧ body.length = 4) ∨ (kind ∈ [0x04, 0x30] ∧ body.length = 5) ∨
    (kind = 0x22 ∧ body.length = 7) ∨ (kind = 0x10 ∧ body.length = 9) ∨ (kind ∈ [0x20, 0x28] ∧ body.length = 10) ∨
    (kind = 0x26 ∧ body.length = 17) ∨ (kind = 0x24 ∧ body.length = 48)) ∧
  (∀ (c : Instr) (kind tag : Byte) (body : List Byte) (s : State),
    requestOf c = some (kind, tag, body) → c.wf = true → Takes s → lengthFits kind.toNat body = false →
    ∃ t, exec c s = .next t ∧ Answered s t ⟨replyKind kind, tag, [0x08], false⟩ ∧ OnlyLink s t) ∧
  (∀ (c : Instr) (kind tag : Byte) (body : List Byte) (s : State),
    requestOf c = some (kind, tag, body) → c.wf = true → s.lnk.waiting = [] → s.lnk.replies.length < 4 →
    s.lnk.resetPending = false →
    (s.lnk.power = .waking →
      ∃ t, exec c s = .next t ∧ Answered s t ⟨replyKind kind, tag, [0x09], false⟩ ∧ OnlyLink s t) ∧
    (s.lnk.power = .standby →
      ∃ t, exec c s = .next t ∧ Replies s t ⟨replyKind kind, tag, [0x09], false⟩ ∧ t.lnk.power = .waking ∧
        OnlyLink { s with exu := { s.exu with head := .warming } } t))

/-- The status codes, and: a request its owner refuses changes nothing; one answered WAKING is not carried out
(R175). -/
def Obligations.RefusedRequestChangesNothing : Prop :=
  [stOK, stAlready, stBusy, stRefusedState, stRange, stFull, stNotFound, stDuplicate, stBadFormat, stWaking] =
    [0x00, 0x01, 0x02, 0x03, 0x04, 0x05, 0x06, 0x07, 0x08, 0x09] ∧
  (∀ (kind : Nat) (body : List Byte) (s : State),
    (ownerAnswer kind body s).2.head? ≠ some 0x00 → (ownerAnswer kind body s).1 = s) ∧
  (∀ (r : Request) (s : State), s.lnk.power = .active → lengthFits r.kind.toNat r.body = false →
    carryOut r s = pushReply r [0x08] false s) ∧
  (∀ (r : Request) (s : State), s.lnk.power ≠ .active → carryOut r s = pushReply r [0x09] false (startWaking s))

/-! ### Orders -/

/-- ORDER_SUBMIT accepted: the order takes the lowest free slot with the next intake sequence, ACCEPTED. Each line is
stored as submitted, its density and corrections clamped to −8..+8, with nothing delivered, in flight or remade; its unit
price is its table entry's for the copies ordered of its size and surface together. The clamps and the cap are flagged;
terms and quote are captured; the reply carries slot, sequence, quote and flags (R3, R10 to R12, R150, R152). -/
def Obligations.OrderSubmitAccepted : Prop :=
  ∀ (tag : Byte) (body : List Byte) (s : State) (sub : Submission) (slot : Nat),
    Takes s → body.length ≤ 1024 → readSubmission body = some sub →
    findOrder s.ort.slots sub.number = none → submissionFault s sub = none → freeSlot s.ort.slots = some slot →
    let o := acceptedOrder s sub
    (o.number = sub.number ∧ o.subTag = sub.subTag ∧ o.state = .accepted ∧ o.seq = s.ort.seq + 1 ∧
      o.discount = min sub.discount 50 ∧ o.bins = [] ∧ o.settled = none ∧ o.quote = priceTotal o Line.n ∧
      o.terms = ⟨s.set.settings.surcharge, s.set.settings.roundingUnit⟩ ∧ o.lines.length = sub.lines.length) ∧
    (o.source = sub.source ∧ o.priority = sub.priority ∧ o.express = sub.express ∧ o.overflowUsed = false ∧
      o.binEmptiedEarly = false ∧ o.priceCapped = priceIsCapped o Line.n ∧
      (o.discountClamped = true ↔ 50 < sub.discount) ∧
      (o.correctionsClamped = true ↔
        ∃ x ∈ sub.lines, ∃ c ∈ [x.density, x.cyan, x.magenta, x.yellow], c < -8 ∨ 8 < c)) ∧
    (∀ (i : Nat) (x : SubLine), sub.lines[i]? = some x → ∃ l, o.lines[i]? = some l ∧
      (l.imageId = x.imageId ∧ l.width = x.width ∧ l.height = x.height ∧ l.crop = x.crop ∧ l.size = x.size ∧
        Surface.ofCode x.surface = some l.surface ∧ l.n = x.copies) ∧
      (l.density = max (-8) (min 8 x.density) ∧ l.cyan = max (-8) (min 8 x.cyan) ∧
        l.magenta = max (-8) (min 8 x.magenta) ∧ l.yellow = max (-8) (min 8 x.yellow)) ∧
      (l.d = 0 ∧ l.f = 0 ∧ l.r = 0 ∧ l.failed = none) ∧
      l.price = (s.prc.prices.getD (3 * x.size + x.surface) PriceEntry.unset).unitPrice
        ((sub.lines.filter fun y => y.size == x.size && y.surface == x.surface).map SubLine.copies).sum) ∧
    (freeSlot s.ort.slots = some slot → s.ort.slots[slot]? = some none ∧
      ∀ j, j < slot → s.ort.slots[j]? ≠ some none) ∧
    ∃ t, exec (.orderSubmit tag body) s = .next t ∧
      Answered s t (replyTo 0x01 tag (le1 0x00 ++ (le1 slot ++ le4 o.seq ++ le4 o.quote ++ le1 o.submitFlags))) ∧
      Settles (s.setOrt ⟨s.ort.slots.set slot (some o), s.ort.seq + 1⟩) t

/-- The refusals of ORDER_SUBMIT in their order: BAD_FORMAT, ALREADY or DUPLICATE, RANGE with the line, FULL; nothing
changes. RANGE names 0 for a field of the order, and else the lowest line, from 1, with copies outside 1..99, an image width
or height of 0, a surface or size code that is none, a size or price entry not enabled, or a crop not inside the image (R6 to
R9). -/
def Obligations.OrderSubmitRefused : Prop :=
  (∀ (s : State) (sub : Submission),
    let own := sub.number = 0 ∨ 999999 < sub.number ∨ 7 < sub.source ∨ 15 < sub.priority ∨ sub.lines.length = 0 ∨
      8 < sub.lines.length
    let bad := fun l : SubLine => l.copies = 0 ∨ 99 < l.copies ∨ l.width = 0 ∨ l.height = 0 ∨ 2 < l.surface ∨ 15 < l.size ∨
      (∀ e, s.exu.sizes[l.size]? = some e → e.enabled = false) ∨
      (∀ e, s.prc.prices[3 * l.size + l.surface]? = some e → e.enabled = false) ∨
      ∃ c, l.crop = some c ∧ (c.w = 0 ∨ c.h = 0 ∨ l.width < c.x0 + c.w ∨ l.height < c.y0 + c.h)
    (submissionFault s sub = some 0 ↔ own) ∧
    (∀ k, submissionFault s sub = some (k + 1) ↔ ¬ own ∧ (∃ l, sub.lines[k]? = some l ∧ bad l) ∧
      ∀ j l, j < k → sub.lines[j]? = some l → ¬ bad l) ∧
    (submissionFault s sub = none ↔ ¬ own ∧ ∀ l ∈ sub.lines, ¬ bad l)) ∧
  ∀ (tag : Byte) (body : List Byte) (s : State), Takes s → body.length ≤ 1024 →
    (readSubmission body = none → ∃ t, exec (.orderSubmit tag body) s = .next t ∧ OnlyLink s t ∧
      Answered s t (replyTo 0x01 tag [0x08])) ∧
    ∀ sub, readSubmission body = some sub →
      (∀ slot o, findOrder s.ort.slots sub.number = some (slot, o) →
        ∃ t, exec (.orderSubmit tag body) s = .next t ∧ OnlyLink s t ∧
          (o.subTag = sub.subTag → Answered s t (replyTo 0x01 tag
            (le1 0x01 ++ (le1 slot ++ le4 o.seq ++ le4 o.quote ++ le1 o.submitFlags)))) ∧
          (o.subTag ≠ sub.subTag → Answered s t (replyTo 0x01 tag (le1 0x07 ++ le1 slot)))) ∧
      (findOrder s.ort.slots sub.number = none → ∀ i, submissionFault s sub = some i →
        ∃ t, exec (.orderSubmit tag body) s = .next t ∧ OnlyLink s t ∧
          Answered s t (replyTo 0x01 tag (le1 0x04 ++ le1 i))) ∧
      (findOrder s.ort.slots sub.number = none → submissionFault s sub = none → freeSlot s.ort.slots = none →
        ∃ t, exec (.orderSubmit tag body) s = .next t ∧ OnlyLink s t ∧
          Answered s t (replyTo 0x01 tag [0x05]))

/-- ORDER_QUERY answers the record of the order as it stands, field by field as R183 lays it out, or NOT_FOUND, and changes
nothing (R17, R18; the codes of the failed field and the two's complement of the corrections: log 9). STATUS answers the parts
of every block in the order of the table, each with the fields its rule names (R22, R42, R65, R83, R106, R122, R140, R179),
and then clears the overrun flag, the five discard and overrun counts, the expiry count and the unregistered-delivered count,
and nothing else. The fields sent with an open code take whatever value it has (log 6), so does a negative loop (log 23); a
ladder index that is none is sent as 0xFF (the model's choice, log 36), and the Station link's counts stand before the Image
link's (the model's choice, log 53); the codes of a filtered reading, with 2 for none, are those of log 9; the flush time left
is a free value, and the model's counter of them moves on by one (log 5). Every other code stands in the order in which its
rule lists the values (R183; the order of those that no table numbers: log 9). -/
def Obligations.OrderQueryAndStatus : Prop :=
  ([Mag.a, .b].map Mag.code = [0, 1] ∧ [Surface.gloss, .matte, .lustre].map Surface.code = [0, 1, 2] ∧
    [PowerState.active, .standby, .waking].map PowerState.code = [0, 1, 2] ∧
    [HeadState.off, .warming, .ready, .exposing, .fault].map HeadState.code = [0, 1, 2, 3, 4] ∧
    [MagState.absent, .calNeeded, .ready, .empty].map MagState.code = [0, 1, 2, 3] ∧
    [WebState.unthreaded, .threading, .ready, .changeover, .fault, .clearing].map WebState.code = [0, 1, 2, 3, 4, 5] ∧
    [CutterState.idle, .feeding, .cutting, .hold, .fault].map CutterState.code = [0, 1, 2, 3, 4] ∧
    [SorterState.run, .hold, .fault].map SorterState.code = [0, 1, 2] ∧
    [ReadingState.none, .awaited, .taken].map ReadingState.code = [0, 1, 2] ∧
    [BinState.free, .assigned, .full, .emptying, .unclaimed].map BinState.code = [0, 1, 2, 3, 4] ∧
    (StripMark.none.code = 0 ∧ StripMark.awaiting.code = 1 ∧ ∀ n, (StripMark.created n).code = 2) ∧
    [SaveOutcome.none, .done, .failed].map SaveOutcome.code = [0, 1, 2]) ∧
  (∀ (tag : Byte) (body : List Byte) (s : State), Takes s → body.length = 4 →
    ∃ t, exec (.orderQuery tag body) s = .next t ∧ OnlyLink s t ∧
      (∀ slot o, findOrder s.ort.slots (num body) = some (slot, o) →
        Answered s t (replyTo 0x02 tag (le1 0x00 ++ o.reply slot))) ∧
      (findOrder s.ort.slots (num body) = none → Answered s t (replyTo 0x02 tag [0x06]))) ∧
  (∀ (slot : Nat) (o : Order),
    let bit := fun (b : Bool) (n : Nat) => if b then n else 0
    let bin := fun i : Nat => le1 (o.bins.getD i 0xFF)
    let signed := fun x : Int => [BitVec.ofInt 8 x]
    let line := fun l : Line =>
      le4 l.imageId ++ le2 l.width ++ le2 l.height ++
        (match l.crop with
          | some c => le1 1 ++ le2 c.x0 ++ le2 c.y0 ++ le2 c.w ++ le2 c.h
          | none => le1 0 ++ List.replicate 8 0x00) ++
        le1 l.size ++ le1 l.surface.code ++ le1 l.n ++ signed l.density ++ signed l.cyan ++ signed l.magenta ++
        signed l.yellow ++ le2 l.price ++ le1 l.d ++ le1 l.f ++ le1 l.r ++ le1 (l.n - l.d - l.f) ++
        le1 (match l.failed with
          | none => 0
          | some .remakeLimit => 1
          | some .imageMissing => 2
          | some .rowRange => 3)
    o.reply slot = le1 slot ++ le4 o.number ++ le2 o.subTag ++ le1 o.source ++ le1 o.priority ++ le1 (bit o.express 1) ++
      le1 o.discount ++ le4 o.seq ++
      le1 (match o.state with
        | .accepted => 0
        | .active => 1
        | .complete => 2
        | .failing => 3
        | .failed => 4) ++
      le1 (bit o.correctionsClamped 1 + bit o.discountClamped 2 + bit o.priceCapped 4 + bit o.binEmptiedEarly 8 +
        bit o.overflowUsed 16) ++
      le4 o.quote ++ le4 (o.settled.getD 0xFFFFFFFF) ++ le1 o.terms.surcharge ++ le1 o.terms.roundingUnit ++
      le1 o.bins.length ++ bin 0 ++ bin 1 ++ bin 2 ++ bin 3 ++ le1 o.lines.length ++ o.lines.flatMap line ∧
    (o.reply slot).length = 33 + 31 * o.lines.length) ∧
  (∀ (tag : Byte) (s : State), Takes s →
    ∃ t, exec (.status tag []) s = .next t ∧
      Replies s t (replyTo 0x38 tag (le1 0x00 ++
        (statusLink s ++ statusOrders s ++ statusScheduling s ++ statusExposure s ++ statusFetch s ++ statusWeb s ++
          statusCutter s ++ statusSorter s ++ statusSettings s))) ∧
      (t.lnk.overrun = false ∧ t.lnk.stationCrc = 0 ∧ t.lnk.stationFraming = 0 ∧ t.lnk.imageCrc = 0 ∧
        t.lnk.imageFraming = 0 ∧ t.lnk.rxOverruns = 0) ∧
      (t.lnk.power = s.lnk.power ∧ t.lnk.stationRx = s.lnk.stationRx ∧ t.lnk.imageRx = s.lnk.imageRx ∧
        t.lnk.waiting = [] ∧ t.lnk.resetPending = false) ∧
      OnlyLink { s with
        ifu := { s.ifu with expiries := 0 }
        srt := { s.srt with unregDone := 0 }
        free := s.free + 1 } t) ∧
  (∀ s : State,
    let bool := fun b : Bool => le1 (if b then 1 else 0)
    let big := fun n : Nat => le2 (if 65535 < n then 65535 else n)
    let frame := fun n : Option Nat => le2 (n.getD 0xFFFF)
    let mag := fun m : Option Mag => le1 (match m with
      | some .a => 0
      | some .b => 1
      | none => Config.openCode .magazine)
    let opens := fun (f : Config.OpenField) (n : Option Nat) => n.getD (Config.openCode f)
    let orders := fun st : OrderState => le1 (s.ort.slots.filter fun x => (x.map Order.state) == some st).length
    let slots := fun k : Nat => le1 (s.ifu.slots.filter fun x => (match x with
      | .empty => 0
      | .awaited _ _ _ _ _ => 1
      | .filled _ _ _ _ _ => 2) == k).length
    let tags := fun k : Nat => le1 (s.ifu.tags.filter fun x => (match x with
      | .free => 0
      | .outstanding _ _ _ => 1
      | .expired _ _ => 2) == k).length
    let exposing := if s.web.run.isSome then s.web.map.getLast?.map WebEntry.frame else none
    let head := if s.sch.committed then s.sch.queue.head? else none
    let record := fun r : MagRecord =>
      le1 r.state.code ++ le2 r.width ++ le1 r.surface.code ++ le4 r.remaining ++ le1 r.profile ++
        le2s r.offsets.r ++ le2s r.offsets.g ++ le2s r.offsets.b ++ le1 (r.indices.r.getD 0xFF) ++
        le1 (r.indices.g.getD 0xFF) ++ le1 (r.indices.b.getD 0xFF) ++ bool r.lowReported
    let searched := ((match s.cut.carried with
      | some x => [x.gap]
      | none => []) ++ s.cut.gaps).find? fun g => g.decision == .undecided
    let cut := s.cut.nextCut
    let reading := fun x : Option Occupancy => le1 (match x with
      | some .empty => 0
      | some .occupied => 1
      | none => 2)
    let holding := fun b : HoldBin => bool b.full ++ le1 b.count ++ reading b.sensor.filtered
    statusLink s = le1 s.lnk.power.code ++ le1 s.lnk.notices.length ++ bool s.lnk.overrun ++ big s.lnk.stationCrc ++
      big s.lnk.stationFraming ++ big s.lnk.imageCrc ++ big s.lnk.imageFraming ++ big s.lnk.rxOverruns ∧
    statusOrders s = le1 (s.ort.slots.filter Option.isSome).length ++ orders .accepted ++ orders .active ++
      orders .complete ++ orders .failing ++ orders .failed ∧
    statusScheduling s = le1 s.sch.queue.length ++ le1 (s.sch.queue.filter fun f => f.mag == .a).length ++
      le1 (s.sch.queue.filter fun f => f.mag == .b).length ++ frame (s.sch.queue.head?.map Frame.number) ++
      bool s.sch.committed ++
      (match s.sch.changeover with
        | .clear => le1 0 ++ mag none
        | .pending m => le1 1 ++ mag (some m)
        | .asked m => le1 2 ++ mag (some m)) ++ le1 s.sch.markA.code ++ le1 s.sch.markB.code ∧
    statusExposure s = le1 s.exu.head.code ++ frame (exposing.map Frame.number) ++
      le1 (opens .speedClass ((exposing.bind Frame.exposure).map fun x => if x.speed = .slow then 1 else 0)) ++
      le1 (opens .limited ((exposing.bind Frame.exposure).map fun x => if x.limited then 1 else 0)) ∧
    statusFetch s = slots 0 ++ slots 1 ++ slots 2 ++ tags 0 ++ tags 1 ++ tags 2 ++
      le1 (s.ifu.tags.filter fun x => match x with
        | .outstanding _ none _ => true
        | _ => false).length ++
      frame (s.ifu.current.map Current.frame) ++ frame (head.map Frame.number) ++ bool s.ifu.primed ++
      big s.ifu.expiries ∧
    statusWeb s = le1 s.web.state.code ++ mag s.web.active ++ mag s.web.threading ++ mag s.web.ask ++ le4 s.web.fIn ++
      le4 s.web.c ++
      le4 (opens .loop (if (s.web.c : Int) + s.set.settings.pathFixed ≤ s.web.fIn then
        some (s.web.fIn - s.web.c - s.set.settings.pathFixed) else none)) ++
      le1 s.web.map.length ++ frame (s.web.map.head?.map fun e => e.frame.number) ++
      frame (s.web.map.getLast?.map fun e => e.frame.number) ++ bool s.web.flushTimer.isSome ++
      le4 (opens .flushTime (s.web.flushTimer.map fun d => min (Config.flushTimeLeft s.free) (1000 * d))) ++
      bool s.web.flush.isSome ++ le4 (opens .coordinate s.web.flush) ++ record s.web.magA ++ record s.web.magB ∧
    statusCutter s = le1 s.cut.state.code ++
      le1 (opens .waiting (if s.cut.state = .feeding then
        some (if s.web.fIn ≤ s.web.c + s.set.settings.pathFixed then 1 else 0) else none)) ++
      le1s s.cut.offset ++ le1 s.cut.missCount ++
      le1 (opens .cutKind (cut.map fun x => if x.kind = .trailing then 1 else 0)) ++ frame (cut.map NextCut.frame) ++
      le4 (opens .coordinate (cut.map NextCut.nominal)) ++ le4 (opens .coordinate (cut.map fun x => x.target.toNat)) ++
      le1 s.cut.gaps.length ++ frame (searched.map GapRecord.frame) ++
      le4 (opens .coordinate (searched.bind GapRecord.markCoord)) ∧
    statusSorter s = le1 s.srt.state.code ++
      frame (if s.srt.jammed then s.srt.transit.head?.map fun p => p.frame.number else none) ++
      le1 s.srt.transit.length ++
      s.srt.transit.flatMap (fun p => le2 p.frame.number ++ le1 (if p.frame.isStrip then 1 else 0) ++
        bool p.frame.live ++ le1 p.reading.code ++ le1 (p.routed.getD 0xFF)) ++
      s.srt.bins.flatMap (fun b => le1 b.state.code ++ le4 (b.owner.getD 0xFFFFFFFF) ++ le1 b.count ++
        reading b.sensor.filtered) ++
      holding s.srt.overflow ++ holding s.srt.reject ++ big s.srt.unregDone ∧
    statusSettings s = bool s.set.save.isSome ++ le1 s.set.outcome.code)

/-- ORDER_CANCEL of an ACCEPTED, ACTIVE or FAILING order frees its slot, keeps every other order, removes its frames from the
exposure queue, makes those on the web map and in transit dead, and releases its bins: FREE when empty, EMPTYING with prints
in them or a drop on its way; in COMPLETE and FAILED it is refused. A committed head that the cancel, or a hold by priority 0,
takes out of the queue leaves its line slots EMPTY and its tags with the discard mark, and is primed no longer; the supply of
a current frame made dead is abandoned the same way, and another current frame stays (R17, R20, R38, R73, R74, R132, R136;
that an abandoned frame is no longer the current one: log 10). ORDER_PRIORITY stores a new priority 0..15 of an ACCEPTED or
ACTIVE order: its frames are re-placed by it behind the committed head, the others keeping their order, or, for 0, removed;
above 15 is RANGE, another state REFUSED_STATE, and the same priority has no effect (R19, R37, R38). In a queue ordered by R25
re-placing keeps it so under the new priority, the order's own frames keeping their order too (R37). ORDER_COLLECT of a
COMPLETE or FAILED order answers its outcome and settled amount, frees its slot and releases its bins; otherwise it is refused
(R21, R132). A number that no occupied slot holds is NOT_FOUND, and nothing changes (R17). -/
def Obligations.OrderCancelPriorityCollect : Prop :=
  let released := fun (s : State) (o : Order) => s.srt.bins.mapIdx fun b x =>
    if b ∈ o.bins then { x with
      owner := none
      state := if x.count = 0 ∧ x.sensor.filtered = some .empty ∧
          ¬ (s.srt.dropping = true ∧ s.srt.transit.head?.bind Piece.routed = some b) then .free else .emptying }
    else x
  let alone := fun (s : State) (o : Order) (slot : Nat) =>
    ∀ (j : Nat) (o' : Order), s.ort.slots[j]? = some (some o') → o'.number = o.number → j = slot
  (∀ (tag : Byte) (body : List Byte) (s : State) (slot : Nat) (o : Order), Takes s → body.length = 4 →
    findOrder s.ort.slots (num body) = some (slot, o) →
    (o.state.ended = true → ∃ t, exec (.orderCancel tag body) s = .next t ∧ OnlyLink s t ∧
      Answered s t (replyTo 0x03 tag [0x03])) ∧
    (o.state.ended = false → ∃ t, exec (.orderCancel tag body) s = .next t ∧
      Answered s t (replyTo 0x03 tag (le1 0x00 ++ le1 (s.sch.queue.filter (Frame.ofOrder o.number)).length ++
        le1 ((s.web.map.filter fun e => e.frame.liveOf o.number).length +
          (s.srt.transit.filter fun p => p.frame.liveOf o.number).length))) ∧
      OrtKeeps (s.setOrder slot none).ort t.ort ∧
      t.web.map = s.web.map.map (fun e => { e with frame := e.frame.killOf o.number }) ∧
      SrtKeeps { s.srt with
        transit := s.srt.transit.map fun p => { p with frame := p.frame.killOf o.number }
        bins := released s o } t.srt ∧
      (∀ f, (Frame.killOf o.number f).liveOf o.number = false) ∧
      QueueKeeps (s.without (Frame.ofOrder o.number)) t ∧
      (alone s o slot → ∀ f ∈ t.sch.queue, f.ofOrder o.number = false) ∧
      (∀ h, committedHead s = some h → h.ofOrder o.number = true → HeadGone h s t) ∧
      (∀ c, s.ifu.current = some c →
        ((∃ e ∈ s.web.map, e.frame.number = c.frame ∧ e.frame.liveOf o.number = true) → CurrentGone c s t) ∧
        ((∀ e ∈ s.web.map, e.frame.number = c.frame → e.frame.liveOf o.number = false) → t.ifu.current = some c)) ∧
      t.exu = s.exu ∧ t.prc = s.prc ∧ t.set = s.set)) ∧
  (∀ (tag : Byte) (body : List Byte) (s : State) (slot : Nat) (o : Order), Takes s → body.length = 5 →
    findOrder s.ort.slots (num (body.take 4)) = some (slot, o) →
    let p := num (body.drop 4)
    let t₀ := s.setOrder slot (some { o with priority := p })
    (o.state.schedulable = false → ∃ t, exec (.orderPriority tag body) s = .next t ∧ OnlyLink s t ∧
      Answered s t (replyTo 0x04 tag [0x03])) ∧
    (o.state.schedulable = true → 15 < p → ∃ t, exec (.orderPriority tag body) s = .next t ∧ OnlyLink s t ∧
      Answered s t (replyTo 0x04 tag [0x04])) ∧
    (o.state.schedulable = true → p ≤ 15 → ∃ t, exec (.orderPriority tag body) s = .next t ∧
      Answered s t (replyTo 0x04 tag [0x00]) ∧ Settles t₀ t ∧
      (p = o.priority → OnlyLink s t) ∧
      (p ≠ o.priority → p = 0 → QueueKeeps (t₀.without (Frame.ofOrder o.number)) t ∧
        (∀ h, committedHead s = some h → h.ofOrder o.number = true → HeadGone h s t) ∧
        (alone s o slot → ∀ f ∈ t.sch.queue, f.ofOrder o.number = false)) ∧
      (p ≠ o.priority → p ≠ 0 →
        let q := (replaceFrames o.number t₀).sch.queue
        q.Perm s.sch.queue ∧
        q.filter (fun f => !f.ofOrder o.number) = s.sch.queue.filter (fun f => !f.ofOrder o.number) ∧
        (s.sch.committed = true → q.head? = s.sch.queue.head?) ∧
        (QueueOrdered s →
          ((q.drop (fixedCount s.sch.committed q)).Pairwise fun f g =>
            lexLt (frameKey t₀ g) (frameKey t₀ f) = false) ∧
          (Accounts s →
            q.filter (Frame.ofOrder o.number) = s.sch.queue.filter (Frame.ofOrder o.number))) ∧
        QueueKeeps (t₀.setSch { s.sch with queue := q }) t))) ∧
  (∀ (tag : Byte) (body : List Byte) (s : State) (slot : Nat) (o : Order), Takes s → body.length = 4 →
    findOrder s.ort.slots (num body) = some (slot, o) →
    (o.state.ended = false → ∃ t, exec (.orderCollect tag body) s = .next t ∧ OnlyLink s t ∧
      Answered s t (replyTo 0x05 tag [0x03])) ∧
    (o.state.ended = true → ∃ t, exec (.orderCollect tag body) s = .next t ∧
      Answered s t (replyTo 0x05 tag
        (le1 0x00 ++ le1 (if o.state = .failed then 1 else 0) ++ le4 (o.settled.getD 0))) ∧
      OrtKeeps (s.setOrder slot none).ort t.ort ∧ t.web.map = s.web.map ∧
      SrtKeeps { s.srt with bins := released s o } t.srt ∧ QueueKeeps s t ∧
      t.exu = s.exu ∧ t.prc = s.prc ∧ t.set = s.set)) ∧
  (∀ (tag : Byte) (body : List Byte) (s : State), Takes s →
    (body.length = 4 → findOrder s.ort.slots (num body) = none →
      (∃ t, exec (.orderCancel tag body) s = .next t ∧ OnlyLink s t ∧ Answered s t (replyTo 0x03 tag [0x06])) ∧
      ∃ t, exec (.orderCollect tag body) s = .next t ∧ OnlyLink s t ∧ Answered s t (replyTo 0x05 tag [0x06])) ∧
    (body.length = 5 → findOrder s.ort.slots (num (body.take 4)) = none →
      ∃ t, exec (.orderPriority tag body) s = .next t ∧ OnlyLink s t ∧ Answered s t (replyTo 0x04 tag [0x06])))

/-- Reports and endings: an ACTIVE order whose copies are all delivered is COMPLETE, a FAILING one with none in flight is
FAILED, each settled on the copies delivered with ORDER_DONE, and no other order ends (R15, R16, R153). A loss takes its
frame's copy out of flight. A cleared one, one of a failed line, and one of a FAILING order within the remake limit is
NOT_COUNTED; an image failure fails the line with its cause, and so does a loss at the remake limit; any other is counted as a
remake; d is untouched (R159, R160, R168). A line that fails raises LINE_FAILED behind the FRAME_LOST and gives up its queued
frames but the committed head, and its ACTIVE order is FAILING, or FAILED with nothing left in flight (R14, R16). FRAME_LOST
is sent in the layout of R183 (R162; that it also precedes the ORDER_DONE of an order the loss ends: the model's choice, log
49; the codes of absent values: log 6; the codes of LINE_FAILED's causes: log 9), its causes coded in the order of the table
of 9.1, its outcomes and holders in that of R162. A drop that delivers the last copy completes the order within its event, and
a jam's loss is accounted with SORTER_JAM within its own, FRAME_LOST raised (R4, R135, R138, R158). -/
def Obligations.LossesAccounted : Prop :=
  ([LossCause.missingLine, .headFault, .paperEnd, .cutFault, .sorterJam, .imageMissing, .rowRange, .pathClear].map
      LossCause.code = [0, 1, 2, 3, 4, 5, 6, 7] ∧
    [LossOutcome.remakeCounted, .lineFailed, .notCounted].map LossOutcome.code = [0, 1, 2] ∧
    [HeldIn.queue, .webMap, .transit].map HeldIn.code = [0, 1, 2]) ∧
  (∀ (slot number : Nat) (s : State) (o : Order), s.orderAt slot number = some o →
    (o.state = .active → (∀ l ∈ o.lines, l.d = l.n) → stateCheck slot number s =
      sendNotice .orderDone (le4 o.number ++ [0] ++ le4 (priceTotal o Line.d)) (s.setOrder slot (some { o with
        state := .complete
        settled := some (priceTotal o Line.d)
        priceCapped := o.priceCapped || priceIsCapped o Line.d }))) ∧
    (o.state = .failing → (∀ l ∈ o.lines, l.f = 0) → stateCheck slot number s =
      sendNotice .orderDone (le4 o.number ++ [1] ++ le4 (priceTotal o Line.d)) (s.setOrder slot (some { o with
        state := .failed
        settled := some (priceTotal o Line.d)
        priceCapped := o.priceCapped || priceIsCapped o Line.d }))) ∧
    ((o.state = .active → ∃ l ∈ o.lines, l.d ≠ l.n) → (o.state = .failing → ∃ l ∈ o.lines, l.f ≠ 0) →
      stateCheck slot number s = s)) ∧
  (∀ (rep : LossReport) (s : State) (o : Order) (l : Line),
    s.orderAt rep.ref.slot rep.ref.number = some o → o.line rep.ref.line = some l →
    let t := accountLoss rep s
    let image := rep.cause = .imageMissing ∨ rep.cause = .rowRange
    let free := rep.cause = .pathClear ∨ l.failed ≠ none
    let fails := ¬ free ∧ (image ∨ s.set.settings.remakeLimit ≤ l.r)
    let counted := ¬ free ∧ ¬ fails ∧ o.state ≠ .failing
    RaisesFirst s t (lossNotice rep s) ∧ (lossNotice rep s).length = 1 ∧
    ∃ o' l', t.orderAt rep.ref.slot rep.ref.number = some o' ∧ o'.line rep.ref.line = some l' ∧
      (∀ i, i ≠ rep.ref.line → o'.line i = o.line i) ∧ l'.d = l.d ∧ l'.n = l.n ∧
      (counted → l' = { l with f := l.f - 1, r := l.r + 1 }) ∧
      (free ∨ (¬ fails ∧ o.state = .failing) → l' = { l with f := l.f - 1 }) ∧
      (fails → l' = { l with
        f := l.f - 1 - (s.sch.queue.filter fun g => (match g.ref with
            | some q => q.slot == rep.ref.slot && q.number == rep.ref.number && q.line == rep.ref.line
            | none => false) && some g.number != (committedHead s).map Frame.number).length
        failed := some (if rep.cause = .imageMissing then .imageMissing
          else if rep.cause = .rowRange then .rowRange else .remakeLimit) } ∧
        RaisesFirst s t [
          (.frameLost, frameLostBody rep .lineFailed { l with f := l.f - 1 }),
          (.lineFailed, le4 rep.ref.number ++ le1 rep.ref.line ++ le1 (if rep.cause = .imageMissing then 1
            else if rep.cause = .rowRange then 2 else 0))] ∧
        (o.state = .active ∨ o.state = .failing →
          (∃ x ∈ o'.lines, x.f ≠ 0) ∧ o'.state = .failing ∨
            (∀ x ∈ o'.lines, x.f = 0) ∧ o'.state = .failed ∧ o'.settled = some (priceTotal o' Line.d) ∨
            o.state = .active ∧ (∀ x ∈ o.lines, x.d = x.n))) ∧
      (∀ p, s.set.settings.noticePriorities[NoticeKind.frameLost.index]? = some p → p ≠ 0 → s.lnk.notices.length < 32 →
        ∃ later, t.lnk.notices = s.lnk.notices ++ ⟨.frameLost, p, s.lnk.occurrence,
          frameLostBody rep (if counted then .remakeCounted else if fails then .lineFailed else .notCounted)
            { l with f := l.f - 1, r := if counted then l.r + 1 else l.r }⟩ :: later)) ∧
  (∀ (rep : LossReport) (outcome : LossOutcome) (l : Line) (x : Exposure), rep.frame.exposure = some x →
    frameLostBody rep outcome l =
      le2 rep.frame.number ++ le4 rep.ref.number ++ le1 rep.ref.line ++ le1 rep.ref.copy ++ le1 rep.cause.code ++
      le1 outcome.code ++ le1 l.d ++ le1 l.f ++ le1 l.r ++ le1 (l.n - l.d - l.f) ++ le1 rep.held.code ++
      le2 (rep.line.getD (Config.openCode .printLine)) ++ le2 x.codes.r ++ le2 x.codes.g ++ le2 x.codes.b ++
      le4 x.dwells.r ++ le4 x.dwells.g ++ le4 x.dwells.b ++ le1 (if x.speed = .slow then 1 else 0) ++
      le1 ((if x.limited then 1 else 0) + (if rep.frame.unregistered then 2 else 0))) ∧
  (∀ (s : State) (p : Piece) (rest : List Piece) (r : PrintRef) (o : Order) (l : Line), Undisturbed s →
    s.srt.ended = 0 → s.srt.dropping = true → s.srt.transit = p :: rest → p.frame.ref = some r → p.frame.live = true →
    s.orderAt r.slot r.number = some o → o.line r.line = some l → o.state = .active → l.d + 1 = l.n →
    (∀ i x, i ≠ r.line → o.line i = some x → x.d = x.n) →
    ∃ t o', exec .dropCompletion s = .next t ∧ t.orderAt r.slot r.number = some o' ∧ o'.state = .complete ∧
      o'.settled = some (priceTotal o' Line.d) ∧ ∀ x ∈ o'.lines, x.d = x.n) ∧
  (∀ (s : State) (p : Piece) (rest : List Piece) (r : PrintRef), Undisturbed s → s.srt.state ≠ .fault →
    s.srt.dropping = true → s.srt.transit = p :: rest → p.frame.ref = some r → p.frame.live = true →
    ∃ t, exec .transportJam s = .next t ∧ LossTaken ⟨p.frame, r, .sorterJam, .transit, none⟩ s t)

/-- A line is eligible when its order is ACCEPTED or ACTIVE with priority 1 or more, it has not failed and has copies
unscheduled, a usable magazine matches its width and surface, and a bin can take another print (R28, R29). With
changeover-pending CLEAR the selection takes the best line of the highest eligible priority that the active magazine can
expose; failing that, at or above the changeover priority or with no line for the active magazine, it sets the flag toward the
other magazine and takes the best line for that; otherwise the best line for the active magazine. With the flag set it takes
the best line for the target. Best is by priority, then intake sequence, then line index (R31, R32). A frame created has a
number not held, its line's next copy and its size's lengths; it joins the queue, the others keeping their order; f rises by
1, an ACCEPTED order is ACTIVE, and an order without a bin is assigned the lowest FREE one of its range (R13, R26, R27, R33,
R131). A strip is due for an active magazine marked AWAITING, with no changeover asked and room in the queue; a pass creates
it before any print, behind the committed head or at position 1, Lf 400 and G 20, marked CREATED with its number (R26, R27,
R30, R34, R35). A pass ends with the queue full or nothing to select (R30). An offered strip at the head is committed and
primed at once (R36, R72). The flag moves to ASKED, and WEB holds the ask, once the queue holds no frame for the active
magazine. A READY web goes to CHANGEOVER, with a needed flush, and threads the target if its map is empty, as CLEARING does;
in THREADING, FAULT and CLEARING with the feeder commanded the ask is only held. A target too short is EMPTY and its ask
dropped (R40, R90, R92, R93). A pass brings every line's paper-wait mark in line with whether the line wants paper, and raises
PAPER_NEEDED for each line that comes to want it, in the order of slots and lines (R41; that order: log 34). -/
def Obligations.FramesScheduled : Prop :=
  let usable := fun (s : State) (l : Line) (m : Mag) =>
    (s.web.mag m).width = (s.exu.sizes.getD l.size SizeEntry.unset).width ∧ (s.web.mag m).surface = l.surface ∧
    s.web.active ≠ none ∧ ((s.web.mag m).state = .ready ∨ ((s.web.mag m).state = .calNeeded ∧
      (s.web.active = some m → s.set.settings.calibrationRequired = 0)))
  let roomy := fun (s : State) (o : Order) =>
    (o.bins.length < 4 ∧ freeBinFor s o ≠ none) ∨
    ∃ b x, o.bins.getLast? = some b ∧ s.srt.bins[b]? = some x ∧ x.state = .assigned ∧ x.count < s.set.settings.binCapacity
  let best := fun (xs : List Candidate) (c : Candidate) => c ∈ xs ∧ ∀ d ∈ xs,
    d.order.priority < c.order.priority ∨ (d.order.priority = c.order.priority ∧ (c.order.seq < d.order.seq ∨
      (c.order.seq = d.order.seq ∧ c.index ≤ d.index)))
  (∀ (s : State) (l : Line) (m : Mag), magUsable s l m = true ↔ usable s l m) ∧
  (∀ (s : State) (o : Order) (l : Line), eligible s o l = true ↔
    (o.state = .accepted ∨ o.state = .active) ∧ 1 ≤ o.priority ∧ l.failed = none ∧ l.d + l.f < l.n ∧
      (usable s l .a ∨ usable s l .b) ∧ roomy s o) ∧
  (∀ (s : State) (c : Candidate), c ∈ eligibleLines s ↔ s.ort.slots[c.slot]? = some (some c.order) ∧
    c.order.line c.index = some c.line ∧ eligible s c.order c.line = true) ∧
  (∀ (s : State) (active : Mag), s.web.active = some active → s.sch.changeover = .clear →
    let cs := eligibleLines s
    let here := cs.filter fun c => magUsable s c.line active
    let there := cs.filter fun c => magUsable s c.line active.other
    (∀ c ∈ cs, c.order.priority ≤ 15) →
    (cs = [] → select s = ⟨.clear, none⟩) ∧
    (∀ p, (∃ c ∈ cs, c.order.priority = p) → (∀ c ∈ cs, c.order.priority ≤ p) →
      ((∃ c ∈ here, c.order.priority = p) → ∃ c, select s = ⟨.clear, some (c, active)⟩ ∧
        best (here.filter fun c => c.order.priority == p) c) ∧
      ((∀ c ∈ here, c.order.priority ≠ p) → s.set.settings.changeoverPriority ≤ p ∨ here = [] →
        ∃ c, select s = ⟨.pending active.other, some (c, active.other)⟩ ∧ best there c) ∧
      ((∀ c ∈ here, c.order.priority ≠ p) → p < s.set.settings.changeoverPriority → here ≠ [] →
        ∃ c, select s = ⟨.clear, some (c, active)⟩ ∧ best here c))) ∧
  (∀ (s : State) (m : Mag), s.sch.changeover = .pending m ∨ s.sch.changeover = .asked m →
    let there := (eligibleLines s).filter fun c => magUsable s c.line m
    (∀ c ∈ there, c.order.priority ≤ 15) →
    (select s).changeover = s.sch.changeover ∧ (there = [] → (select s).choice = none) ∧
      (there ≠ [] → ∃ c, (select s).choice = some (c, m) ∧ best there c)) ∧
  (∀ (s : State) (c : Candidate) (m : Mag), s.ort.slots[c.slot]? = some (some c.order) →
    c.order.line c.index = some c.line → (heldNumbers s).length ≤ 52 →
    let t := createPrint c m s
    let e := s.exu.sizes.getD c.line.size SizeEntry.unset
    ∃ n o, n ∉ heldNumbers s ∧ n < 65535 ∧ t.sch.counter = n ∧
      (∃ pre post, s.sch.queue = pre ++ post ∧ t.sch.queue = pre ++
        ⟨n, .print ⟨c.slot, c.order.number, c.index, c.line.d + c.line.f + 1, c.line.size⟩, m, e.lf, e.gap, true, false,
          none, false⟩ :: post ∧ (s.sch.committed = true → s.sch.queue ≠ [] → pre ≠ [])) ∧
      t.sch.committed = s.sch.committed ∧ t.ort.slots[c.slot]? = some (some o) ∧
      o.line c.index = some { c.line with f := c.line.f + 1 } ∧
      o.state = (if c.order.state = .accepted then .active else c.order.state) ∧
      (c.order.bins ≠ [] → o.bins = c.order.bins ∧ t.srt = s.srt) ∧
      (∀ b x, c.order.bins = [] → freeBinFor s c.order = some b → s.srt.bins[b]? = some x → o.bins = [b] ∧
        t.srt.bins = s.srt.bins.set b ⟨.assigned, some c.order.number, 0, x.sensor⟩)) ∧
  (∀ s : State, let t := frameStage 16 s
    (t.sch.queue.length < 16 → (select t).choice = none) ∧ (s.sch.queue.length ≤ 16 → t.sch.queue.length ≤ 16)) ∧
  (∀ (s : State) (f : Frame) (rest : List Frame), s.sch.queue = f :: rest → s.sch.committed = false →
    f.isStrip = true → s.web.active = some f.mag →
    (s.web.mag f.mag).state = .ready ∨ (s.web.mag f.mag).state = .calNeeded →
    (ifuService s).sch.committed = true ∧ (ifuService s).ifu.primed = true) ∧
  (∀ (s : State) (f : Frame) (rest : List Frame), s.sch.queue = f :: rest → s.sch.committed = false →
    s.web.active ≠ some f.mag ∨ (s.web.mag f.mag).state = .absent ∨ (s.web.mag f.mag).state = .empty ∨
      ((s.web.mag f.mag).state = .calNeeded ∧ f.isStrip = false ∧ s.set.settings.calibrationRequired ≠ 0) →
    (ifuService s).sch = s.sch) ∧
  (∀ (s : State) (m : Mag), s.sch.changeover = .pending m →
    (∀ x, s.web.active = some x → ∀ f ∈ s.sch.queue, f.mag ≠ x) → s.web.state = .ready → s.web.map ≠ [] →
    (askTest s).sch = { s.sch with changeover := .asked m } ∧ (askTest s).web.ask = some m ∧
      (askTest s).web.state = .changeover ∧ (askTest s).web.threading = s.web.threading ∧
      (askTest s).web.flushTimer = none ∧
      (askTest s).web.flush = (match s.web.newest with
        | some e => if s.web.run = none ∧ s.web.fIn < flushEnd s e + s.set.settings.pathFixed ∧ 0 < activeRemaining s then
            some (flushEnd s e + s.set.settings.pathFixed) else s.web.flush
        | none => s.web.flush)) ∧
  (∀ (s : State) (m : Mag), s.sch.changeover = .pending m →
    (∀ x, s.web.active = some x → ∀ f ∈ s.sch.queue, f.mag ≠ x) →
    let t := askTest s
    let path := s.set.settings.pathFixed
    let fits := fun x : Mag => path ≤ (s.web.mag x).remaining
    let threads := fun x : Mag =>
      t.web.threading = some x ∧ .threadFeeder x ∈ t.ports ∧ t.web.fIn = path ∧ t.web.c = 0
    let held := t.sch = { s.sch with changeover := .asked m } ∧ t.web.ask = some m
    let dropped := t.sch.changeover = .clear ∧ t.web.ask = none ∧ (t.web.mag m).state = .empty ∧
      ((s.web.mag m).state ≠ .empty → t.sch.queue = s.sch.queue.filter (fun f => f.mag != m) ∧ t.sch.mark m = .none ∧
        RaisesFirst s t [(.magEmpty, le1 m.code ++ le1 2 ++ le4 (s.web.mag m).remaining)])
    (s.web.state = .ready → s.web.map = [] → s.web.threading = none →
      (fits m → held ∧ t.web.state = .changeover ∧ threads m) ∧
      (¬ fits m → dropped ∧ t.web.state = .ready ∧ t.web.threading = none)) ∧
    (s.web.state = .threading ∨ s.web.state = .fault ∨ (s.web.state = .clearing ∧ s.web.threading ≠ none) →
      t = (s.setSch { s.sch with changeover := .asked m }).setWeb { s.web with ask := some m }) ∧
    (s.web.state = .clearing → s.web.threading = none →
      (fits m → held ∧ t.web.state = .clearing ∧ threads m) ∧
      (¬ fits m → dropped ∧ ∀ x, s.web.active = some x → t.web.state = .clearing ∧
        (x ≠ m → (s.web.mag x).state.loaded = true → fits x → threads x) ∧
        (x = m ∨ (s.web.mag x).state.loaded = false ∨ ¬ fits x →
          t.web.threading = none ∧ (t.web.mag x).state.loaded = false)))) ∧
  (∀ (s : State) (m : Mag), stripDue s = some m ↔ s.web.active = some m ∧ s.sch.mark m = .awaiting ∧
    (∀ x, s.sch.changeover ≠ .asked x) ∧ s.sch.queue.length < 16) ∧
  (∀ n : Nat, succNumber n = if 65534 ≤ n then 0 else n + 1) ∧
  (∀ s : State, (heldNumbers s).length ≤ 52 → newNumber s < 65535 ∧ newNumber s ∉ heldNumbers s ∧
    ∃ k, newNumber s = Nat.repeat succNumber (k + 1) s.sch.counter ∧
      ∀ j, j < k → Nat.repeat succNumber (j + 1) s.sch.counter ∈ heldNumbers s) ∧
  (∀ (s : State) (m : Mag),
    let n := newNumber s
    let ahead := if s.sch.committed then 1 else 0
    let strip : Frame := ⟨n, .strip, m, 400, 20, false, false, none, false⟩
    let t := createStrip m s
    (t.sch.queue = s.sch.queue.take ahead ++ strip :: s.sch.queue.drop ahead ∧ t.sch.counter = n ∧
      t.sch.mark m = .created n ∧ t.sch.mark m.other = s.sch.mark m.other ∧ t.sch.committed = s.sch.committed ∧
      t.ort = s.ort ∧ t.srt = s.srt ∧ t.lnk = s.lnk) ∧
    (stripDue s = some m → selectionPass s = oweAsk (frameStage 16 (createStrip m (paperStage s))) ∧
      (selectionPass s).sch.mark m = .created n ∧
      ∃ rest, (selectionPass s).sch.queue = s.sch.queue.take ahead ++ strip :: rest) ∧
    (stripDue s = none → selectionPass s = oweAsk (frameStage 16 (paperStage s)))) ∧
  (∀ s : State, (∀ m, s.sch.changeover ≠ .pending m) ∨ (∃ x, s.web.active = some x ∧ ∃ f ∈ s.sch.queue, f.mag = x) →
    askTest s = s) ∧
  (∀ (s : State) (o : Order) (l : Line), wantsPaper s o l = true ↔
    (o.state = .accepted ∨ o.state = .active) ∧ 1 ≤ o.priority ∧ l.failed = none ∧ l.d + l.f < l.n ∧
      ∀ m : Mag, (s.web.mag m).width = (s.exu.sizes.getD l.size SizeEntry.unset).width →
        (s.web.mag m).surface = l.surface → (s.web.mag m).state ≠ .calNeeded ∧ (s.web.mag m).state ≠ .ready) ∧
  (∀ (s : State) (slot i : Nat) (o : Order) (l : Line), s.ort.slots[slot]? = some (some o) → o.line i = some l →
    ∃ o', (paperStage s).ort.slots[slot]? = some (some o') ∧
      o'.line i = some { l with paperWait := wantsPaper s o l }) ∧
  (∀ s : State,
    let new := (candidates 0 s.ort.slots).filter fun c => wantsPaper s c.order c.line && !c.line.paperWait
    s.set.settings.noticePriorities.getD 1 0 ≠ 0 → s.lnk.notices.length + new.length ≤ 32 →
    NoticesAdded s (selectionPass s) (new.map fun c => (.paperNeeded, le4 c.order.number ++ le1 c.index ++
      le1 c.line.size ++ le2 (s.exu.sizes.getD c.line.size SizeEntry.unset).width ++ le1 c.line.surface.code))) ∧
  (∀ (s : State) (c : Candidate), c ∈ candidates 0 s.ort.slots ↔
    s.ort.slots[c.slot]? = some (some c.order) ∧ c.order.line c.index = some c.line) ∧
  (∀ s : State, (candidates 0 s.ort.slots).Pairwise fun c d => c.slot < d.slot ∨ (c.slot = d.slot ∧ c.index < d.index))

/-! ### Tables and settings -/

/-- SIZE_WRITE and PRICE_WRITE of an entry in range that disables none in use replace the entry, WINDOW_WRITE of a window in
range replaces it whatever the state of the part; out of range they are RANGE, disabling an entry in use is BUSY; SIZE_READ,
PRICE_READ and WINDOW_READ answer the entry in the same bytes, or RANGE for a code out of range. A size entry is in use while
a line of an occupied order names its code, a price entry while one names its code and surface; the thresholds of a price
entry are 0 or 2..999, the enabled ones first and rising strictly. The bytes of an entry are its fields in the order of the
kind table (R44, R45, R129, R130, R143, R145 to R147, R183; a signed field in two's complement: log 9; that an enable byte of
2 or more is out of range is the model's choice, log 30). -/
def Obligations.EntryTableRequests : Prop :=
  (∀ (code : Nat) (e : SizeEntry), e.bytes code = le1 code ++ le1 (if e.enabled then 1 else 0) ++ le2 e.width ++
    le2 e.lf ++ le2 e.gap ++ le2 (BitVec.ofInt 16 e.offset).toNat) ∧
  (∀ (code : Nat) (u : Surface) (e : PriceEntry), e.bytes code u =
    le1 code ++ le1 u.code ++ le1 (if e.enabled then 1 else 0) ++ le2 e.price1 ++
      (le2 e.tier2.threshold ++ le2 e.tier2.price) ++ (le2 e.tier3.threshold ++ le2 e.tier3.price) ++
      (le2 e.tier4.threshold ++ le2 e.tier4.price)) ∧
  (∀ (i : Nat) (w : Window), w.bytes i = le1 i ++ le1 (if w.enabled then 1 else 0) ++ le4 w.base ++ le1 w.k ++
    le1 w.firstBin ++ le1 w.binCount ++ [w.mask]) ∧
  (∀ (code : Nat) (e : SizeEntry) (s : State), sizeBusy code e s = true ↔
    (∃ old, s.exu.sizes[code]? = some old ∧ old.enabled = true) ∧ e.enabled = false ∧
      ∃ (slot : Nat) (o : Order) (l : Line), s.ort.slots[slot]? = some (some o) ∧ l ∈ o.lines ∧ l.size = code) ∧
  (∀ (code : Nat) (u : Surface) (e : PriceEntry) (s : State), priceBusy code u e s = true ↔
    (∃ old, s.prc.prices[3 * code + u.code]? = some old ∧ old.enabled = true) ∧ e.enabled = false ∧
      ∃ (slot : Nat) (o : Order) (l : Line), s.ort.slots[slot]? = some (some o) ∧ l ∈ o.lines ∧ l.size = code ∧
        l.surface = u) ∧
  (∀ e : PriceEntry, e.inRange = true ↔
    (∀ t ∈ [e.tier2, e.tier3, e.tier4], t.threshold = 0 ∨ (2 ≤ t.threshold ∧ t.threshold ≤ 999)) ∧
    (e.tier3.threshold ≠ 0 → e.tier2.threshold ≠ 0 ∧ e.tier2.threshold < e.tier3.threshold) ∧
    (e.tier4.threshold ≠ 0 → e.tier3.threshold ≠ 0 ∧ e.tier3.threshold < e.tier4.threshold)) ∧
  (∀ (body : List Byte) (code : Nat) (u : Surface) (e : PriceEntry), readPriceKey body = some (code, u) →
    readPrice body = some e → code ≤ 15 ∧ e.inRange = true ∧ (body.length = 17 → e.bytes code u = body)) ∧
  (∀ (body : List Byte) (e : SizeEntry), body.length = 10 → readSize body = some e →
    e.bytes (num (body.take 1)) = body) ∧
  (∀ (body : List Byte) (w : Window), body.length = 10 → readWindow body = some w →
    w.bytes (num (body.take 1)) = body) ∧
  (∀ e : SizeEntry, e.inRange = true ↔ e.width ∈ [89, 102, 127, 152, 203, 210, 254, 305] ∧ 400 ≤ e.lf ∧ e.lf ≤ 6000 ∧
    e.gap ≤ 200 ∧ -256 ≤ e.offset ∧ e.offset ≤ 255) ∧
  (∀ (code : Nat) (e : SizeEntry), code ≤ 15 → e.inRange = true → readSize (e.bytes code) = some e) ∧
  (∀ (body : List Byte) (e : SizeEntry), readSize body = some e →
    e.width ∈ [89, 102, 127, 152, 203, 210, 254, 305] ∧ 400 ≤ e.lf ∧ e.lf ≤ 6000 ∧ e.gap ≤ 200 ∧ -256 ≤ e.offset ∧
      e.offset ≤ 255) ∧
  (∀ (tag : Byte) (body : List Byte) (s : State), Takes s → body.length = 10 →
    (15 < num (body.take 1) ∨ readSize body = none → ∃ t, exec (.sizeWrite tag body) s = .next t ∧
      Answered s t (replyTo 0x20 tag [0x04]) ∧ OnlyLink s t) ∧
    (∀ e, num (body.take 1) ≤ 15 → readSize body = some e → sizeBusy (num (body.take 1)) e s = true →
      ∃ t, exec (.sizeWrite tag body) s = .next t ∧ Answered s t (replyTo 0x20 tag [0x02]) ∧ OnlyLink s t)) ∧
  (∀ (tag : Byte) (body : List Byte) (s : State) (code : Nat) (e : SizeEntry), Takes s → body.length = 10 →
    num (body.take 1) = code → code ≤ 15 → readSize body = some e → sizeBusy code e s = false →
    ∃ t, exec (.sizeWrite tag body) s = .next t ∧ Answered s t (replyTo 0x20 tag [0x00]) ∧
      Settles (s.setExu { s.exu with sizes := s.exu.sizes.set code e }) t) ∧
  (∀ (tag : Byte) (b : Byte) (s : State), Takes s →
    ∃ t, exec (.sizeRead tag [b]) s = .next t ∧ OnlyLink s t ∧
      (b.toNat ≤ 15 → Answered s t (replyTo 0x21 tag
        (le1 0x00 ++ (s.exu.sizes.getD b.toNat SizeEntry.unset).bytes b.toNat))) ∧
      (15 < b.toNat → Answered s t (replyTo 0x21 tag [0x04]))) ∧
  (∀ (code : Nat) (u : Surface) (e : PriceEntry), code ≤ 15 → e.inRange = true → e.price1 < 2 ^ 16 →
    e.tier2.price < 2 ^ 16 → e.tier3.price < 2 ^ 16 → e.tier4.price < 2 ^ 16 →
    readPriceKey (e.bytes code u) = some (code, u) ∧ readPrice (e.bytes code u) = some e) ∧
  (∀ (tag : Byte) (body : List Byte) (s : State), Takes s → body.length = 17 →
    (readPriceKey body = none ∨ readPrice body = none → ∃ t, exec (.priceWrite tag body) s = .next t ∧
      Answered s t (replyTo 0x26 tag [0x04]) ∧ OnlyLink s t) ∧
    (∀ code u e, readPriceKey body = some (code, u) → readPrice body = some e → priceBusy code u e s = true →
      ∃ t, exec (.priceWrite tag body) s = .next t ∧ Answered s t (replyTo 0x26 tag [0x02]) ∧ OnlyLink s t)) ∧
  (∀ (tag : Byte) (body : List Byte) (s : State) (code : Nat) (u : Surface) (e : PriceEntry), Takes s →
    body.length = 17 → readPriceKey body = some (code, u) → readPrice body = some e → priceBusy code u e s = false →
    ∃ t, exec (.priceWrite tag body) s = .next t ∧ Answered s t (replyTo 0x26 tag [0x00]) ∧
      OnlyLink (s.setPrc ⟨s.prc.prices.set (3 * code + u.code) e⟩) t) ∧
  (∀ (tag : Byte) (b c : Byte) (s : State), Takes s →
    ∃ t, exec (.priceRead tag [b, c]) s = .next t ∧ OnlyLink s t ∧
      (∀ u, Surface.ofCode c.toNat = some u → b.toNat ≤ 15 → Answered s t (replyTo 0x27 tag
        (le1 0x00 ++ (s.prc.prices.getD (3 * b.toNat + c.toNat) PriceEntry.unset).bytes b.toNat u))) ∧
      (15 < b.toNat ∨ 2 < c.toNat → Answered s t (replyTo 0x27 tag [0x04]))) ∧
  (∀ w : Window, w.inRange = true ↔ w.base ≤ 999999 ∧ w.k ≤ 19 ∧ w.firstBin ≤ 23 ∧ 1 ≤ w.binCount ∧ w.binCount ≤ 24 ∧
    w.firstBin + w.binCount ≤ 24) ∧
  (∀ (i : Nat) (w : Window), i ≤ 7 → w.inRange = true → readWindow (w.bytes i) = some w) ∧
  (∀ (body : List Byte) (w : Window), readWindow body = some w → w.base ≤ 999999 ∧ w.k ≤ 19 ∧ w.firstBin ≤ 23 ∧
    1 ≤ w.binCount ∧ w.binCount ≤ 24 ∧ w.firstBin + w.binCount ≤ 24) ∧
  (∀ (tag : Byte) (body : List Byte) (s : State), Takes s → body.length = 10 →
    7 < num (body.take 1) ∨ readWindow body = none → ∃ t, exec (.windowWrite tag body) s = .next t ∧
      Answered s t (replyTo 0x28 tag [0x04]) ∧ OnlyLink s t) ∧
  (∀ (tag : Byte) (body : List Byte) (s : State) (i : Nat) (w : Window), Takes s → body.length = 10 →
    num (body.take 1) = i → i ≤ 7 → readWindow body = some w →
    ∃ t, exec (.windowWrite tag body) s = .next t ∧ Answered s t (replyTo 0x28 tag [0x00]) ∧
      Settles (s.setSrt { s.srt with windows := s.srt.windows.set i w }) t) ∧
  (∀ (tag : Byte) (b : Byte) (s : State), Takes s →
    ∃ t, exec (.windowRead tag [b]) s = .next t ∧ OnlyLink s t ∧
      (b.toNat ≤ 7 → Answered s t (replyTo 0x29 tag
        (le1 0x00 ++ (s.srt.windows.getD b.toNat Window.unset).bytes b.toNat))) ∧
      (7 < b.toNat → Answered s t (replyTo 0x29 tag [0x04])))

/-- PROFILE_WRITE with a number up to 7 and base codes up to 4095 replaces the profile; PROFILE_READ answers it, or RANGE
above 7 (R46). -/
def Obligations.ProfileRequests : Prop :=
  (∀ (tag : Byte) (body : List Byte) (s : State), Takes s → body.length = 7 →
    let i := num (body.take 1)
    let p : RGB Nat := ⟨field body 1 2, field body 3 2, field body 5 2⟩
    (i ≤ 7 ∧ p.r ≤ 4095 ∧ p.g ≤ 4095 ∧ p.b ≤ 4095 → ∃ t, exec (.profileWrite tag body) s = .next t ∧
      Answered s t (replyTo 0x22 tag [0x00]) ∧
      OnlyLink (s.setExu { s.exu with profiles := s.exu.profiles.set i p }) t) ∧
    (¬ (i ≤ 7 ∧ p.r ≤ 4095 ∧ p.g ≤ 4095 ∧ p.b ≤ 4095) → ∃ t, exec (.profileWrite tag body) s = .next t ∧
      Answered s t (replyTo 0x22 tag [0x04]) ∧ OnlyLink s t)) ∧
  (∀ (tag : Byte) (b : Byte) (s : State), Takes s →
    ∃ t, exec (.profileRead tag [b]) s = .next t ∧ OnlyLink s t ∧
      (∀ p, s.exu.profiles[b.toNat]? = some p → b.toNat ≤ 7 → Answered s t (replyTo 0x23 tag
        (le1 0x00 ++ (le1 b.toNat ++ le2 p.r ++ le2 p.g ++ le2 p.b)))) ∧
      (7 < b.toNat → Answered s t (replyTo 0x23 tag [0x04])))

/-- LADDER_WRITE of thresholds up to 1023 in non-decreasing order replaces the ladder, any other is RANGE; LADDER_READ
answers the 32 values. A ladder in range is read back from its bytes, and the bytes from the ladder they carry: the 16
thresholds of two bytes each, then the 16 signed bytes (R47, R183; the signed bytes in two's complement: log 9). -/
def Obligations.LadderRequests : Prop :=
  (∀ (body : List Byte) (i : Nat), i < 16 →
    (readLadder body).thresholds[i]? =
      some ((body.getD (2 * i) 0).toNat + 256 * (body.getD (2 * i + 1) 0).toNat) ∧
    (readLadder body).steps[i]? = some (body.getD (32 + i) 0).toInt) ∧
  (∀ l : Ladder, l.bytes = l.thresholds.flatMap le2 ++ l.steps.flatMap fun v => [BitVec.ofInt 8 v]) ∧
  (∀ (tag : Byte) (body : List Byte) (s : State), Takes s → body.length = 48 →
    ((readLadder body).inRange = true → ∃ t, exec (.ladderWrite tag body) s = .next t ∧
      Answered s t (replyTo 0x24 tag [0x00]) ∧ OnlyLink (s.setExu { s.exu with ladder := readLadder body }) t) ∧
    ((readLadder body).inRange = false → ∃ t, exec (.ladderWrite tag body) s = .next t ∧
      Answered s t (replyTo 0x24 tag [0x04]) ∧ OnlyLink s t)) ∧
  (∀ (tag : Byte) (s : State), Takes s → ∃ t, exec (.ladderRead tag []) s = .next t ∧ OnlyLink s t ∧
    Answered s t (replyTo 0x25 tag (le1 0x00 ++ s.exu.ladder.bytes))) ∧
  (∀ l : Ladder, l.inRange = true →
    ∀ i j : Nat, i ≤ j → ∀ a b : Nat, l.thresholds[i]? = some a → l.thresholds[j]? = some b → a ≤ b ∧ b ≤ 1023) ∧
  (∀ l : Ladder, l.inRange = true ↔ (∀ x ∈ l.thresholds, x ≤ 1023) ∧
    ∀ i x y : Nat, l.thresholds[i]? = some x → l.thresholds[i + 1]? = some y → x ≤ y) ∧
  (∀ l : Ladder, l.thresholds.length = 16 → l.steps.length = 16 → l.inRange = true →
    (∀ v ∈ l.steps, -128 ≤ v ∧ v ≤ 127) → readLadder l.bytes = l) ∧
  (∀ body : List Byte, body.length = 48 → (readLadder body).bytes = body ∧ (readLadder body).thresholds.length = 16 ∧
    (readLadder body).steps.length = 16 ∧ ∀ v ∈ (readLadder body).steps, -128 ≤ v ∧ v ≤ 127)

/-- SETTING_WRITE of one of a setting's values makes it the live value and leaves every other setting; an identifier or a
value outside the table is RANGE; path_fixed, loop_max and mark_offset are REFUSED_STATE on a threaded web; a capacity below a
bin's contents is BUSY. SETTING_READ answers the live value. The identifiers and values are those of the table of R184. The
web counts as threaded in THREADING, READY, CHANGEOVER and FAULT, and in CLEARING once the feeder is commanded. A capacity is
below a bin's contents when it is below its count, or below its count plus 1 while a drop to it is in progress. The value
already held changes nothing. A capacity written brings its bins into line, ASSIGNED and FULL or OPEN and FULL by the count,
with counts, owners and sensors kept and the sorter's RUN and HOLD following its holding bins; no other write changes a bin
but for one a frame created takes. A lowered capacity that a holding bin's count reaches raises REJECT_FULL; no other write
raises a notice of its own (R126, R137, R184, R185). -/
def Obligations.SettingRequests : Prop :=
  let bin := fun (v : Nat) (x : OrderBin) => { x with state :=
    if x.state = .assigned ∧ x.count = v then .full else if x.state = .full ∧ x.count < v then .assigned else x.state }
  let holding := fun (v : Nat) (x : HoldBin) =>
    { x with full := if x.full then decide (v ≤ x.count) else decide (x.count = v) }
  let sorter := fun (x y : Srt) =>
    if x.state = .run ∧ ((x.overflow.full = false ∧ y.overflow.full = true) ∨
        (x.reject.full = false ∧ y.reject.full = true)) then SorterState.hold
    else if x.state = .hold ∧ ((x.overflow.full = true ∧ y.overflow.full = false ∧ y.reject.full = false) ∨
        (x.reject.full = true ∧ y.reject.full = false ∧ y.overflow.full = false)) then .run
    else x.state
  let aligned := fun (id v : Nat) (x : Srt) =>
    if id = 0x0F then { x with bins := x.bins.map (bin v) }
    else
      let y := { x with
        overflow := if id = 0x10 then holding v x.overflow else x.overflow
        reject := if id = 0x11 then holding v x.reject else x.reject }
      { y with state := sorter x y }
  (∀ s : State, webThreaded s = true ↔ s.web.state = .threading ∨ s.web.state = .ready ∨ s.web.state = .changeover ∨
    s.web.state = .fault ∨ (s.web.state = .clearing ∧ s.web.threading ≠ none)) ∧
  (∀ (id v : Nat) (s : State),
    let entered := fun b : Nat => s.srt.dropping = true ∧ ∃ p rest, s.srt.transit = p :: rest ∧ p.routed = some b
    capacityBusy id v s = true ↔
      (id = 0x0F ∧ ((∃ x ∈ s.srt.bins, v < x.count) ∨
        ∃ b, b < 24 ∧ entered b ∧ v < (s.srt.bins[b]?.map OrderBin.count).getD 0 + 1)) ∨
      (id = 0x10 ∧ (v < s.srt.overflow.count ∨ (entered 24 ∧ v < s.srt.overflow.count + 1))) ∨
      (id = 0x11 ∧ (v < s.srt.reject.count ∨ (entered 25 ∧ v < s.srt.reject.count + 1)))) ∧
  (∀ id v : Nat, settingAllows id v = some true ↔
    ((id = 0x01 ∨ id = 0x02) ∧ v ≤ 1) ∨ (id = 0x03 ∧ 1 ≤ v ∧ v ≤ 15) ∨ ((id = 0x04 ∨ id = 0x05) ∧ 1 ≤ v ∧ v ≤ 63) ∨
    (id = 0x06 ∧ 2000 ≤ v ∧ v ≤ 65535) ∨ (id = 0x07 ∧ (v = 8 ∨ v = 16 ∨ v = 32 ∨ v = 64)) ∨
    (id = 0x08 ∧ 5 ≤ v ∧ v ≤ 255) ∨ (id = 0x09 ∧ 1000 ≤ v ∧ v ≤ 20000) ∨ (id = 0x0A ∧ 500 ≤ v ∧ v ≤ 10000) ∨
    (id = 0x0B ∧ v ≤ 1000000) ∨ (id = 0x0C ∧ v ≤ 600) ∨ (id = 0x0D ∧ 1 ≤ v ∧ v ≤ 100) ∨
    (id = 0x0E ∧ 50 ≤ v ∧ v ≤ 2000) ∨ ((id = 0x0F ∨ id = 0x10 ∨ id = 0x11) ∧ 10 ≤ v ∧ v ≤ 250) ∨
    (id = 0x12 ∧ v ≤ 100) ∨ (id = 0x13 ∧ (v = 1 ∨ v = 5 ∨ v = 10 ∨ v = 50 ∨ v = 100)) ∨ (id = 0x14 ∧ v ≤ 7) ∨
    (id = 0x15 ∧ v ≤ 240) ∨ (0x40 ≤ id ∧ id ≤ 0x51 ∧ v ≤ 15)) ∧
  (∀ (x : Settings) (k : NoticeKind),
    [0x01, 0x02, 0x03, 0x04, 0x05, 0x06, 0x07, 0x08, 0x09, 0x0A, 0x0B, 0x0C, 0x0D, 0x0E, 0x0F, 0x10, 0x11, 0x12, 0x13,
        0x14, 0x15].map x.get =
      [x.calibrationRequired, x.calibrateOnLoad, x.changeoverPriority, x.densityStep, x.colourStep, x.linePeriod,
        x.readAhead, x.fetchTimeout, x.pathFixed, x.loopMax, x.lowMark, x.flushDelay, x.markWindow, x.markOffset,
        x.binCapacity, x.overflowCapacity, x.rejectCapacity, x.surcharge, x.roundingUnit, x.remakeLimit,
        x.idleTimer].map some ∧
    x.get (0x40 + k.index) = some (x.noticePriorities.getD k.index 0)) ∧
  (∀ (x : Settings) (id : Nat), x.get id = none ↔ ¬ ((1 ≤ id ∧ id ≤ 0x15) ∨ (0x40 ≤ id ∧ id ≤ 0x51))) ∧
  (∀ (tag : Byte) (body : List Byte) (s : State) (id v : Nat), Takes s → body.length = 5 →
    num (body.take 1) = id → num (body.drop 1) = v →
    (settingAllows id v ≠ some true → ∃ t, exec (.settingWrite tag body) s = .next t ∧
      Answered s t (replyTo 0x30 tag [0x04]) ∧ OnlyLink s t) ∧
    (settingAllows id v = some true → (id = 0x09 ∨ id = 0x0A ∨ id = 0x0E) → webThreaded s = true →
      ∃ t, exec (.settingWrite tag body) s = .next t ∧ Answered s t (replyTo 0x30 tag [0x03]) ∧ OnlyLink s t) ∧
    (settingAllows id v = some true → capacityBusy id v s = true →
      ∃ t, exec (.settingWrite tag body) s = .next t ∧ Answered s t (replyTo 0x30 tag [0x02]) ∧ OnlyLink s t) ∧
    (settingAllows id v = some true → ((id = 0x09 ∨ id = 0x0A ∨ id = 0x0E) → webThreaded s = false) →
      capacityBusy id v s = false → s.set.settings.noticePriorities.length = 18 →
      ∃ t, exec (.settingWrite tag body) s = .next t ∧ Answered s t (replyTo 0x30 tag [0x00]) ∧
        t.set = { s.set with settings := t.set.settings } ∧ t.set.settings.get id = some v ∧
        (∀ id', id' ≠ id → t.set.settings.get id' = s.set.settings.get id') ∧
        t.exu = s.exu ∧ t.prc = s.prc ∧ t.web.map = s.web.map ∧ t.srt.transit = s.srt.transit ∧
        OrtKeeps s.ort t.ort ∧
        (s.set.settings.get id = some v → OnlyLink s t) ∧
        (s.set.settings.get id ≠ some v → SrtKeeps (aligned id v s.srt) t.srt) ∧
        (s.set.settings.get id ≠ some v → Raises s t (
          if id = 0x10 ∧ s.srt.overflow.full = false ∧ v = s.srt.overflow.count then [(.rejectFull, le1 24 ++ le1 v)]
          else if id = 0x11 ∧ s.srt.reject.full = false ∧ v = s.srt.reject.count then [(.rejectFull, le1 25 ++ le1 v)]
          else [])))) ∧
  (∀ (tag : Byte) (b : Byte) (s : State), Takes s →
    ∃ t, exec (.settingRead tag [b]) s = .next t ∧ OnlyLink s t ∧
      (∀ v, s.set.settings.get b.toNat = some v →
        Answered s t (replyTo 0x31 tag (le1 0x00 ++ (le1 b.toNat ++ le4 v)))) ∧
      (s.set.settings.get b.toNat = none → Answered s t (replyTo 0x31 tag [0x04])))

/-- SETTINGS_SAVE copies the live image and clears the marker, or is BUSY while a save is in progress; at the third
completion the memory holds the image under a marker of its CRC; a write fault ends the save with the marker cleared
(R186; that the marker counts as cleared from the request on is the model's choice, log 7, and so is that a stage completion
and a write fault with no save in progress are discarded, log 42). -/
def Obligations.SettingsSaveStages : Prop :=
  (∀ (tag : Byte) (s : State), Takes s →
    (s.set.save = none → ∃ t, exec (.settingsSave tag []) s = .next t ∧ Answered s t (replyTo 0x32 tag [0x00]) ∧
      OnlyLink (s.setSet { s.set with
        memory := ⟨none, s.set.memory.image⟩
        save := some ⟨⟨s.set.settings, s.exu.sizes, s.exu.profiles, s.exu.ladder, s.prc.prices, s.srt.windows⟩, 1⟩ }) t) ∧
    (s.set.save ≠ none → ∃ t, exec (.settingsSave tag []) s = .next t ∧ Answered s t (replyTo 0x32 tag [0x02]) ∧
      OnlyLink s t)) ∧
  (∀ (s : State) (image : SettingsImage) (n : Nat), Undisturbed s → s.set.save = some ⟨image, n⟩ →
    ∃ t, exec .saveStageCompletion s = .next t ∧ LinkSame s t ∧
      (n = 1 → OnlyLink (s.setSet { s.set with save := some ⟨image, 2⟩ }) t) ∧
      (n = 2 → OnlyLink (s.setSet { s.set with
        memory := ⟨s.set.memory.marker, image⟩
        save := some ⟨image, 3⟩ }) t) ∧
      (n = 3 → OnlyLink (s.setSet { s.set with
        memory := ⟨some (crc16 (Config.imageBytes image)), s.set.memory.image⟩
        save := none
        outcome := .done }) t)) ∧
  (∀ s : State, Undisturbed s → ∃ t, exec .memoryWriteFault s = .next t ∧ LinkSame s t ∧
    (s.set.save ≠ none → OnlyLink (s.setSet { s.set with
      memory := ⟨none, s.set.memory.image⟩
      save := none
      outcome := .failed }) t) ∧
    (s.set.save = none → OnlyLink s t)) ∧
  (∀ s : State, Undisturbed s → s.set.save = none →
    ∃ t, exec .saveStageCompletion s = .next t ∧ LinkSame s t ∧ OnlyLink s t)

/-! ### Paper, head and sorter -/

/-- MAG_LOAD and MAG_UNLOAD write the record as the request and the rule say, but that the end of the same event may find the
new roll EMPTY; a loaded inactive magazine gives up its queued frames, a committed head among them with its supply, its strip
mark and a changeover toward it that is not yet asked: each frame of that magazine queued after a MAG_LOAD carries a number
given since and is a copy of a line that wants the new roll's paper; a load with no active magazine on an UNTHREADED web, or
of the EMPTY active magazine, begins the threading of the roll; out of range and by state the two are refused (R26, R28, R38,
R74, R86, R87, R90). A new length below the low mark raises MAG_LOW, the 0 of an unload too (R88; log 12). CALIBRATE of the
loaded active magazine with no changeover asked and no strip pending sets its strip mark to AWAITING (the pass that follows
may create the strip, and a magazine found EMPTY loses the mark); a pending strip makes it BUSY, any other magazine or state
REFUSED_STATE, another code RANGE (R34, R35, R38, R63). A MAG_LOAD body in range gives the roll of the kind table; a load is
refused for the threading magazine, the target of an asked changeover, and the active magazine unless it is EMPTY, the web
map empty and the web READY or CLEARING (R86, R183; in FAULT: log 46), an unload for the active magazine, the threading one
and that target (R87). -/
def Obligations.MagazineAndCalibrateRequests : Prop :=
  (∀ (pathFixed : Nat) (body : List Byte) (x : Roll), readRoll pathFixed body = some x ↔
    ((field body 0 1 = 0 ∧ x.mag = .a) ∨ (field body 0 1 = 1 ∧ x.mag = .b)) ∧
    (x.width = field body 1 2 ∧ x.width ∈ [89, 102, 127, 152, 203, 210, 254, 305]) ∧
    ((field body 3 1 = 0 ∧ x.surface = .gloss) ∨ (field body 3 1 = 1 ∧ x.surface = .matte) ∨
      (field body 3 1 = 2 ∧ x.surface = .lustre)) ∧
    (x.length = field body 4 4 ∧ pathFixed ≤ x.length) ∧ (x.profile = field body 8 1 ∧ x.profile ≤ 7)) ∧
  (∀ (m : Mag) (s : State),
    (loadRefused m s = true ↔ s.web.threading = some m ∨ s.web.ask = some m ∨ (s.web.active = some m ∧
      ((s.web.mag m).state ≠ .empty ∨ s.web.map ≠ [] ∨ (s.web.state ≠ .ready ∧ s.web.state ≠ .clearing)))) ∧
    (unloadRefused m s = true ↔ s.web.active = some m ∨ s.web.threading = some m ∨ s.web.ask = some m) ∧
    (calibrateRefused m s = true ↔ s.web.active ≠ some m ∨
      ((s.web.mag m).state ≠ .calNeeded ∧ (s.web.mag m).state ≠ .ready) ∨ ∃ target, s.sch.changeover = .asked target)) ∧
  (∀ n : Nat, Mag.ofCode n = (if n = 0 then some .a else if n = 1 then some .b else none)) ∧
  (∀ (tag : Byte) (body : List Byte) (s : State), Takes s → body.length = 9 →
    (readRoll s.set.settings.pathFixed body = none → ∃ t, exec (.magLoad tag body) s = .next t ∧
      Answered s t (replyTo 0x10 tag [0x04]) ∧ OnlyLink s t) ∧
    ∀ x, readRoll s.set.settings.pathFixed body = some x →
      (loadRefused x.mag s = true → ∃ t, exec (.magLoad tag body) s = .next t ∧
        Answered s t (replyTo 0x10 tag [0x03]) ∧ OnlyLink s t) ∧
      (loadRefused x.mag s = false → ∃ t, exec (.magLoad tag body) s = .next t ∧
        Answered s t (replyTo 0x10 tag [0x00]) ∧
        MagKeeps ⟨.calNeeded, x.width, x.surface, x.length, x.profile, ⟨0, 0, 0⟩, ⟨none, none, none⟩,
          decide (x.length < s.set.settings.lowMark)⟩ (t.web.mag x.mag) ∧
        MagKeeps (s.web.mag x.mag.other) (t.web.mag x.mag.other) ∧
        t.web.map = s.web.map ∧ t.web.active = s.web.active ∧ OrtKeeps s.ort t.ort ∧ SrtKeeps s.srt t.srt ∧
        t.exu = s.exu ∧ t.prc = s.prc ∧ t.set = s.set ∧
        ((s.web.active = none ∧ s.web.state = .unthreaded) ∨ (s.web.active = some x.mag ∧
            (s.web.state = .ready ∨ (s.web.state = .clearing ∧ s.web.threading = none))) →
          t.web.threading = some x.mag ∧ .threadFeeder x.mag ∈ t.ports ∧ t.web.fIn = s.set.settings.pathFixed ∧
            t.web.c = 0 ∧ t.web.state = (if s.web.state = .clearing then .clearing else .threading)) ∧
        Raises s t (magLowNotice s x.mag false x.length) ∧
        (∀ m, MarkKeeps (s.sch.mark m) (t.sch.mark m)) ∧
        (s.web.active ≠ some x.mag ∧ (s.web.mag x.mag).state ≠ .absent →
          QueueKeeps (s.without fun f => f.mag == x.mag) t ∧ t.sch.mark x.mag = .none ∧
          (let u := loadRoll x s
           u.sch.queue = (s.sch.queue.filter fun f => f.mag != x.mag) ∧
            (s.sch.changeover = .pending x.mag → u.sch.changeover = .clear)) ∧
          (∀ h, committedHead s = some h → h.mag = x.mag → HeadGone h s t) ∧
          ∃ k, k < 65535 ∧ t.sch.counter = Nat.repeat succNumber k s.sch.counter ∧
            ∀ f ∈ t.sch.queue, f.mag = x.mag → f.live = true ∧ f.exposure = none ∧
              (∃ j, j < k ∧ f.number = Nat.repeat succNumber (j + 1) s.sch.counter) ∧
              ∃ r o l, f.ref = some r ∧ s.orderAt r.slot r.number = some o ∧ o.line r.line = some l ∧
                (s.exu.sizes.getD l.size SizeEntry.unset).width = x.width ∧ l.surface = x.surface) ∧
        (s.web.active = some x.mag ∨ (s.web.mag x.mag).state = .absent → QueueKeeps s t))) ∧
  (∀ (tag : Byte) (b : Byte) (s : State), Takes s →
    (2 ≤ b.toNat → ∃ t, exec (.magUnload tag [b]) s = .next t ∧ Answered s t (replyTo 0x11 tag [0x04]) ∧ OnlyLink s t) ∧
    ∀ m, Mag.ofCode b.toNat = some m →
      (unloadRefused m s = true → ∃ t, exec (.magUnload tag [b]) s = .next t ∧
        Answered s t (replyTo 0x11 tag [0x03]) ∧ OnlyLink s t) ∧
      (unloadRefused m s = false → (s.web.mag m).state = .absent → ∃ t, exec (.magUnload tag [b]) s = .next t ∧
        Answered s t (replyTo 0x11 tag [0x00]) ∧ OnlyLink s t) ∧
      (unloadRefused m s = false → (s.web.mag m).state ≠ .absent → ∃ t, exec (.magUnload tag [b]) s = .next t ∧
        Answered s t (replyTo 0x11 tag [0x00]) ∧
        t.web.mag m = ⟨.absent, (s.web.mag m).width, (s.web.mag m).surface, 0, (s.web.mag m).profile, ⟨0, 0, 0⟩,
          ⟨none, none, none⟩, false⟩ ∧
        MagKeeps (s.web.mag m.other) (t.web.mag m.other) ∧
        QueueKeeps (s.without fun f => f.mag == m) t ∧ (∀ f ∈ t.sch.queue, f.mag ≠ m) ∧ t.sch.mark m = .none ∧
        (∀ h, committedHead s = some h → h.mag = m → HeadGone h s t) ∧ t.sch.changeover ≠ .pending m ∧
        (∀ n, MarkKeeps (s.sch.mark n) (t.sch.mark n)) ∧
        ((s.web.mag m).remaining ≠ 0 → Raises s t (magLowNotice s m (s.web.mag m).lowReported 0)) ∧
        ((s.web.mag m).remaining = 0 → Raises s t []) ∧
        t.web.map = s.web.map ∧ t.web.active = s.web.active ∧ OrtKeeps s.ort t.ort ∧ SrtKeeps s.srt t.srt ∧
        t.exu = s.exu ∧ t.prc = s.prc ∧ t.set = s.set)) ∧
  (∀ (tag : Byte) (b : Byte) (s : State), Takes s →
    (2 ≤ b.toNat → ∃ t, exec (.calibrate tag [b]) s = .next t ∧ Answered s t (replyTo 0x12 tag [0x04]) ∧ OnlyLink s t) ∧
    ∀ m, Mag.ofCode b.toNat = some m →
      (calibrateRefused m s = true → ∃ t, exec (.calibrate tag [b]) s = .next t ∧
        Answered s t (replyTo 0x12 tag [0x03]) ∧ OnlyLink s t) ∧
      (calibrateRefused m s = false → s.sch.mark m ≠ .none → ∃ t, exec (.calibrate tag [b]) s = .next t ∧
        Answered s t (replyTo 0x12 tag [0x02]) ∧ OnlyLink s t) ∧
      (calibrateRefused m s = false → s.sch.mark m = .none →
        ∃ t, exec (.calibrate tag [b]) s = .next t ∧ Answered s t (replyTo 0x12 tag [0x00]) ∧
          Settles (s.setMark m .awaiting) t ∧
          (t.sch.mark m = .awaiting ∨ (∃ n, t.sch.mark m = .created n) ∨
            (t.sch.mark m = .none ∧ (t.web.mag m).state = .empty))))

/-- HEAD_RESET makes a head in FAULT, READY or WARMING begin its warm-up, and is BUSY while it is EXPOSING; no other
block's state changes (R57). -/
def Obligations.HeadResetWarms : Prop :=
  ∀ (tag : Byte) (s : State), Takes s →
    (s.exu.head = .fault ∨ s.exu.head = .ready ∨ s.exu.head = .warming →
      ∃ t, exec (.headReset tag []) s = .next t ∧ Answered s t (replyTo 0x3B tag [0x00]) ∧ .headWarmUp ∈ t.ports ∧
        OnlyLink (s.setExu { s.exu with head := .warming }) t) ∧
    (s.exu.head = .exposing →
      ∃ t, exec (.headReset tag []) s = .next t ∧ Answered s t (replyTo 0x3B tag [0x02]) ∧ OnlyLink s t)

/-- SORTER_RESUME in FAULT removes the jammed piece and sends the sorter to RUN, or to HOLD with a holding bin FULL; in RUN
and HOLD it is refused; a strip removed unread is reported UNREADABLE, and its magazine's strip mark, where it carries the
strip's number, is NONE, and one still AWAITED adds 1 to the readings to discard; nothing else of the sorter changes; the
place that becomes free lets a cutter in HOLD command its cut (R34, R62, R113, R123, R124). A jam in RUN or HOLD makes the
sorter FAULT and the piece being dropped the jammed piece, dead, and raises SORTER_FAULT behind the notices of its loss (that
order: log 58), which a dead print and a strip have not; in FAULT it is discarded (R138, R139; the kinds' codes 0 and 1: log
9; that of an absent piece: log 6). -/
def Obligations.SorterJamAndResume : Prop :=
  (∀ (tag : Byte) (s : State), Takes s →
    (s.srt.state ≠ .fault → ∃ t, exec (.sorterResume tag []) s = .next t ∧
      Answered s t (replyTo 0x3A tag [0x03]) ∧ OnlyLink s t) ∧
    (s.srt.state = .fault → ∃ t, exec (.sorterResume tag []) s = .next t ∧
      Answered s t (replyTo 0x3A tag [0x00]) ∧
      t.srt = { s.srt with
        transit := if s.srt.jammed then s.srt.transit.drop 1 else s.srt.transit
        jammed := false
        state := if s.srt.overflow.full = false ∧ s.srt.reject.full = false then .run else .hold
        discards := s.srt.discards +
          (if s.srt.jammed = true ∧ s.srt.transit.head?.map Piece.reading = some .awaited then 1 else 0) } ∧
      t.ort = s.ort ∧ t.sch.queue = s.sch.queue ∧
      Raises s t (if s.srt.jammed then (s.srt.transit.head?.map (unreadNotice s)).getD [] else []) ∧
      (let unread := fun m => ∃ p rest, s.srt.jammed = true ∧ s.srt.transit = p :: rest ∧ p.frame.mag = m ∧
        p.frame.isStrip = true ∧ p.reading ≠ .taken ∧ s.sch.mark m = .created p.frame.number
       ∀ m, (unread m → t.sch.mark m = .none) ∧ (¬ unread m → MarkKeeps (s.sch.mark m) (t.sch.mark m))) ∧
      (let freed := s.srt.jammed = true ∧ s.srt.transit ≠ [] ∧ s.cut.state = .hold ∧ s.cut.nextCut ≠ none ∧
        (s.web.state = .ready ∨ s.web.state = .changeover)
       (freed → t.cut = { s.cut with state := .cutting } ∧ .bladeCut ∈ t.ports) ∧
       (¬ freed → CutKeeps s.cut t.cut ∧ .bladeCut ∉ t.ports)) ∧
      t.exu = s.exu ∧ t.prc = s.prc ∧ t.set = s.set)) ∧
  (∀ s : State, Undisturbed s →
    (s.srt.state = .fault → ∃ t, exec .transportJam s = .next t ∧ LinkSame s t ∧ OnlyLink s t) ∧
    (s.srt.state ≠ .fault → ∃ t, exec .transportJam s = .next t ∧ LinkSame s t ∧ t.srt.state = .fault ∧
      (∀ p rest, s.srt.transit = p :: rest → s.srt.dropping = true →
        (let jam : Srt := { s.srt with
          transit := { p with frame := { p.frame with live := false } } :: rest
          dropping := false
          jammed := true
          state := .fault }
         let fault := (NoticeKind.sorterFault, le2 p.frame.number ++ le1 (if p.frame.isStrip then 1 else 0) ++
          le1 (p.routed.getD 0xFF) ++ le1 s.srt.transit.length)
         SrtKeeps jam t.srt ∧
          (p.frame.live = false ∨ p.frame.isStrip = true → Raises s t [fault] ∧ OnlyLink (s.setSrt jam) t) ∧
          ∀ r, p.frame.live = true → p.frame.ref = some r →
            RaisesBehind s (accountLoss ⟨p.frame, r, .sorterJam, .transit, none⟩ s) t fault)) ∧
      (s.srt.dropping = false → OnlyLink (s.setSrt { s.srt with state := .fault }) t ∧
        (s.srt.jammed = false → Raises s t [(.sorterFault, le2 0xFFFF ++ le1 (Config.openCode .pieceKind) ++ le1 0xFF ++
          le1 s.srt.transit.length)])) ∧
      t.exu = s.exu ∧ t.prc = s.prc ∧ t.set = s.set ∧ t.web.map = s.web.map))

/-- PATH_CLEAR and a press of the button empty the web map and the transit queue, end a run, a drop and a cut, and clear the
cutter; a flush and its timer are stopped. IFU abandons the current frame's supply, while the committed head keeps its slots,
its tags and whether it is primed (an AWAITED slot without a tag may be given one). Each live print removed is a PATH_CLEAR
loss and its FRAME_LOST is sent first, the web map's before those in transit (log 18), and both before the threading and its
MAG_EMPTY (the model's choice, log 52); a strip removed without an outcome returns its mark to AWAITING (the pass that follows
may create it again, and a magazine found EMPTY loses the mark). Orders keep everything but what their in-flight counts and
their ending change; the exposure queue with its committed head, the bins, tables, settings and magazine records are kept. The
emptied web threads the target of a held ask, otherwise the active magazine, where that is loaded with enough paper. The reply
counts live prints, dead prints and strips (each strip as a strip alone: the model's choice, log 40) and the web state:
CLEARING, or UNTHREADED without a magazine to thread (an ask dropped without an active magazine: log 32). In standby and
waking a press is discarded (R34, R73, R84, R95, R142, R162, R165, R166, R168). -/
def Obligations.PathClearEmptiesPath : Prop :=
  let cleared := fun s t : State =>
    t.web.map = [] ∧ t.srt.transit = [] ∧ t.web.run = none ∧ t.srt.dropping = false ∧ t.srt.jammed = false ∧
    (t.cut.state = .idle ∧ t.cut.offset = 0 ∧ t.cut.missCount = 0 ∧ t.cut.nextCut = none ∧ t.cut.gaps = [] ∧
      t.cut.carried = none ∧ t.cut.leadingMade = false ∧ t.cut.markRun = 0) ∧
    t.cut.abandoned = s.cut.abandoned + (if s.cut.state = .cutting then 1 else 0) ∧
    t.srt.ended = s.srt.ended + (if s.srt.dropping then 1 else 0) ∧
    t.srt.state = (if s.srt.overflow.full = false ∧ s.srt.reject.full = false then .run else .hold) ∧
    t.srt.overflow = s.srt.overflow ∧ t.srt.reject = s.srt.reject ∧ t.srt.windows = s.srt.windows ∧
    SrtKeeps { s.srt with
      transit := []
      dropping := false
      jammed := false
      state := t.srt.state
      ended := t.srt.ended
      discards := s.srt.discards + (s.srt.transit.filter fun p => p.reading == .awaited).length } t.srt ∧
    QueueKeeps s t ∧
    OrtKeeps s.ort t.ort ∧ MagKeeps s.web.magA t.web.magA ∧ MagKeeps s.web.magB t.web.magB ∧
    t.web.active = s.web.active ∧ t.prc = s.prc ∧ t.set = s.set ∧
    (s.web.active ≠ none → t.web.state = .clearing) ∧
    (s.web.active = none → s.web.ask = none → t.web.state = .unthreaded) ∧
    (∀ m, s.web.ask = some m ∨ (s.web.ask = none ∧ s.web.active = some m) → (s.web.mag m).state.loaded = true →
      s.set.settings.pathFixed ≤ (s.web.mag m).remaining →
      t.web.state = .clearing ∧ t.web.threading = some m ∧ .threadFeeder m ∈ t.ports ∧
        t.web.fIn = s.set.settings.pathFixed ∧ t.web.c = 0) ∧
    t.exu = { s.exu with head := if s.exu.head = .exposing ∧ s.web.run ≠ none then .ready else s.exu.head } ∧
    (t.web.flush = none ∧ t.web.flushTimer = none) ∧
    (∀ c e, s.ifu.current = some c → s.web.run ≠ none → s.web.newest = some e → e.frame.number = c.frame →
      CurrentGone c s t) ∧
    (∀ h, committedHead s = some h → (t.web.mag h.mag).state ≠ .empty →
      (∀ e, s.web.newest = some e → e.frame.number ≠ h.number) →
      committedHead t = some h ∧ t.ifu.primed = s.ifu.primed ∧
      (∀ (i : Nat) (info : FetchInfo) (slot timer : Option Nat), info.frame = h.number →
        s.ifu.tags[i]? = some (.outstanding info slot timer) → t.ifu.tags[i]? = some (.outstanding info slot timer)) ∧
      (∀ (i first last row : Nat) (px : List (RGB Byte)), s.ifu.slots[i]? = some (.filled h.number first last row px) →
        t.ifu.slots[i]? = some (.filled h.number first last row px)) ∧
      ∀ (i first last row : Nat) (x : Option Nat), s.ifu.slots[i]? = some (.awaited h.number first last row x) →
        ∃ y, t.ifu.slots[i]? = some (.awaited h.number first last row y) ∧ (x ≠ none → y = x)) ∧
    (∀ m, (∃ f ∈ pathStrips s, f.mag = m ∧ s.sch.mark m = .created f.number) → t.sch.mark m = .awaiting ∨
      (∃ n, t.sch.mark m = .created n) ∨ (t.sch.mark m = .none ∧ (t.web.mag m).state = .empty)) ∧
    (∀ m, (∀ f ∈ pathStrips s, f.mag = m → s.sch.mark m ≠ .created f.number) →
      MarkKeeps (s.sch.mark m) (t.sch.mark m)) ∧
    (Audible s → ((pathLosses s).foldl (fun u x => accountLoss x u) s).lnk.notices <+: t.lnk.notices)
  (∀ s : State,
    let u := (pathLosses s).foldl (fun u x => accountLoss x u) s
    let t := emptyTransit (emptyWebMap s)
    t.ort = u.ort ∧ t.lnk = u.lnk ∧ t.web = { s.web with map := [] } ∧ t.srt.transit = []) ∧
  (∀ (tag : Byte) (s : State), Takes s →
    let frames := s.web.map.map WebEntry.frame ++ s.srt.transit.map Piece.frame
    ∃ t, ∃ w : WebState, exec (.pathClear tag []) s = .next t ∧
      Answered s t (replyTo 0x39 tag (le1 0x00 ++ (le1 (frames.filter fun f => !f.isStrip && f.live).length ++
        le1 (frames.filter fun f => !f.isStrip && !f.live).length ++ le1 (frames.filter Frame.isStrip).length ++
        le1 w.code))) ∧
      (w = .clearing ∨ w = .unthreaded) ∧ (s.web.active ≠ none → w = .clearing) ∧
      (s.web.active = none → s.web.ask = none → w = .unthreaded) ∧
      (∀ m, s.web.ask = some m → ¬ ((s.web.mag m).state.loaded = true ∧
        (s.web.mag m).remaining < s.set.settings.pathFixed) → w = .clearing) ∧ cleared s t) ∧
  (∀ s : State, Undisturbed s → s.lnk.power = .active →
    ∃ t, exec .pathClearButton s = .next t ∧ LinkSame s t ∧ cleared s t) ∧
  (∀ s : State, Undisturbed s → s.lnk.power ≠ .active →
    ∃ t, exec .pathClearButton s = .next t ∧ LinkSame s t ∧ OnlyLink s t)

/-! ### The Station link and the resets -/

/-- RESET is answered OK and schedules the reset, with no other effect before the last byte of its reply is sent. While a
reset is scheduled, or the reply queue is full, a request waits behind those that wait, and is lost where two wait already;
nothing else happens (R173, R180). -/
def Obligations.ResetSchedulesAndRequestsWait : Prop :=
  (∀ (tag : Byte) (s : State), Takes s →
    ∃ t, exec (.reset tag []) s = .next t ∧ Replies s t ⟨0xBC, tag, [0x00], true⟩ ∧ t.lnk.resetPending = true ∧
      t.lnk.power = .active ∧ t.lnk.waiting = [] ∧ OnlyLink s t) ∧
  (∀ (c : Instr) (kind tag : Byte) (body : List Byte) (s : State),
    requestOf c = some (kind, tag, body) → c.wf = true → s.lnk.tx ≠ none →
    (s.lnk.resetPending = true ∨ 4 ≤ s.lnk.replies.length) →
    ∃ t, exec c s = .next t ∧ outgoing t = outgoing s ∧ OnlyLink s t ∧
      (s.lnk.waiting.length < 2 →
        t.lnk.waiting = s.lnk.waiting ++ [⟨kind, tag, body⟩] ∧ t.lnk.rxOverruns = s.lnk.rxOverruns) ∧
      (2 ≤ s.lnk.waiting.length →
        t.lnk.waiting = s.lnk.waiting ∧ t.lnk.rxOverruns = min (s.lnk.rxOverruns + 1) 65535))

/-- The reset takes effect when the reply of a RESET has been sent, and at no other time: RESET_TAKES_EFFECT and
TRANSMIT_COMPLETE then do the same. Orders, queue, line store and web map are emptied, changeover-pending is CLEAR, tags in
use are quarantined, a waiting FETCH is discarded unsent and one being sent goes on, CUT is cleared, bins are re-derived,
readings still awaited will be discarded; tables, settings, windows and the running save are kept. A flush and a threading
end; the web is CLEARING with the active magazine threaded anew when it is neither EMPTY nor ABSENT and holds path_fixed,
UNTHREADED without an active magazine; no notice is left to be sent but MAG_EMPTY of a roll found too short for that threading
(R23, R43, R58, R84, R90, R95, R107, R121, R141, R180; the model's choices: RESET_TAKES_EFFECT without a reset reply in
transmission does nothing, and a head that is OFF becomes WARMING, log 14; the MAG_EMPTY of that moment is sent, log 13). -/
def Obligations.ResetTakesEffect : Prop :=
  let tooShort := fun (s : State) (m : Mag) => s.web.active = some m ∧ (s.web.mag m).state.loaded = true ∧
    (s.web.mag m).remaining < s.set.settings.pathFixed
  (∀ (c : Instr) (s : State), c = .resetTakesEffect ∨ c = .transmitComplete → sendingResetReply s = true →
    ∃ t, exec c s = .next t ∧
      t.ort = ⟨List.replicate 64 none, 0⟩ ∧
      (t.sch.queue = [] ∧ t.sch.committed = false ∧ t.sch.changeover = .clear ∧ t.sch.markA = .none ∧
        t.sch.markB = .none ∧ t.sch.counter = 0) ∧
      (t.ifu.slots = List.replicate 64 .empty ∧ t.ifu.primed = false ∧ t.ifu.current = none ∧ t.ifu.expiries = 0 ∧
        (∀ (i : Nat) (info : FetchInfo) (slot timer : Option Nat),
          s.ifu.tags[i]? = some (.outstanding info slot timer) →
          t.ifu.tags[i]? = some (.expired info (4 * s.set.settings.fetchTimeout))) ∧
        (∀ (i : Nat) (info : FetchInfo) (timer : Nat),
          s.ifu.tags[i]? = some (.expired info timer) → t.ifu.tags[i]? = some (.expired info timer))) ∧
      t.exu = { s.exu with head := if s.exu.head = .ready ∨ (s.exu.head = .exposing ∧ s.web.run ≠ none) then .ready
        else .warming } ∧
      (t.web.map = [] ∧ t.web.run = none ∧ t.web.active = s.web.active ∧ t.web.ask = none ∧
        MagKeeps s.web.magA t.web.magA ∧ MagKeeps s.web.magB t.web.magB ∧
        t.web.flush = none ∧ t.web.flushTimer = none ∧
        (s.web.active = none → t.web.state = .unthreaded) ∧
        (∀ m, s.web.active = some m → t.web.state = .clearing ∧ ((s.web.mag m).state.loaded = true →
          s.set.settings.pathFixed ≤ (s.web.mag m).remaining →
          t.web.threading = some m ∧ .threadFeeder m ∈ t.ports ∧
            t.web.fIn = s.set.settings.pathFixed ∧ t.web.c = 0)) ∧
        ((∀ m, s.web.active = some m → (s.web.mag m).state.loaded = true →
            (s.web.mag m).remaining < s.set.settings.pathFixed) →
          t.web.threading = none ∧ t.web.fIn = s.web.fIn ∧ t.web.c = s.web.c) ∧
        (∀ m, tooShort s m → t.web.mag m = { s.web.mag m with state := .empty }) ∧
        (∀ m, ¬ tooShort s m → t.web.mag m = s.web.mag m)) ∧
      (t.lnk.notices = [] ∧ (t.lnk.tx = none ∨ ∃ m, tooShort s m ∧
        t.lnk.tx = some ⟨0xC3, 0, le1 m.code ++ le1 2 ++ le4 (s.web.mag m).remaining, false⟩)) ∧
      (t.cut.state = .idle ∧ t.cut.offset = 0 ∧ t.cut.missCount = 0 ∧ t.cut.nextCut = none ∧ t.cut.gaps = [] ∧
        t.cut.carried = none ∧ t.cut.leadingMade = false ∧ t.cut.markRun = 0 ∧
        t.cut.abandoned = s.cut.abandoned + (if s.cut.state = .cutting then 1 else 0)) ∧
      (t.srt.transit = [] ∧ t.srt.dropping = false ∧ t.srt.jammed = false ∧ t.srt.state = .run ∧
        t.srt.bins = s.srt.bins.map (fun b => ⟨if b.sensor.filtered = some .occupied then .unclaimed else .free,
          none, 0, b.sensor⟩) ∧
        t.srt.overflow = ⟨false, 0, s.srt.overflow.sensor⟩ ∧ t.srt.reject = ⟨false, 0, s.srt.reject.sensor⟩ ∧
        t.srt.windows = s.srt.windows ∧ t.srt.unregDone = 0 ∧
        t.srt.discards = s.srt.discards + (s.srt.transit.filter fun p => p.reading == .awaited).length ∧
        t.srt.ended = s.srt.ended + (if s.srt.dropping then 1 else 0)) ∧
      (t.lnk.stationRx.phase = .hunt ∧ t.lnk.imageRx.phase = .hunt ∧ t.lnk.waiting = [] ∧ t.lnk.replies = [] ∧
        t.lnk.imageWaiting = [] ∧ t.lnk.imageTx = s.lnk.imageTx ∧
        t.lnk.resetPending = false ∧ t.lnk.overrun = false ∧ t.lnk.stationCrc = 0 ∧ t.lnk.stationFraming = 0 ∧
        t.lnk.imageCrc = 0 ∧ t.lnk.imageFraming = 0 ∧ t.lnk.rxOverruns = 0 ∧
        t.lnk.power = if t.exu.head = .ready then .active else .waking) ∧
      t.prc = s.prc ∧ t.set = s.set) ∧
  (∀ s : State, Undisturbed s → sendingResetReply s = false →
    ∃ t, exec .resetTakesEffect s = .next t ∧ LinkSame s t ∧ OnlyLink s t)

/-- Power-on reset takes every block to its reset values with the settings and tables loaded from the settings memory:
the stored image under a marker that agrees with its CRC, otherwise the defaults (R182, R187). Whatever the image, each
block but for what it loads is as `ResetState` says of the reset state, and the live settings and tables are the image. The
model's queue and counter of free values go on (log 24). -/
def Obligations.PowerOnReset : Prop :=
  (∀ s : State, exec .powerOnReset s = .next { State.poweredOn s.set.memory (loadImage s.set.memory) with
    pending := s.pending
    free := s.free }) ∧
  (∀ image : SettingsImage, loadImage ⟨some (crc16 (Config.imageBytes image)), image⟩ = image ∧
    loadImage ⟨none, image⟩ = SettingsImage.default ∧
    ∀ m, m ≠ crc16 (Config.imageBytes image) → loadImage ⟨some m, image⟩ = SettingsImage.default) ∧
  (∀ (memory : SettingsMemory) (image : SettingsImage),
    (State.poweredOn memory image).lnk.power = .waking ∧ (State.poweredOn memory image).exu.head = .warming ∧
      (State.poweredOn memory image).set.settings = image.settings ∧ (State.poweredOn memory image).set.memory = memory) ∧
  (∀ (memory : SettingsMemory) (image : SettingsImage),
    let p := State.poweredOn memory image
    p.set.settings = image.settings ∧ p.exu.sizes = image.sizes ∧ p.exu.profiles = image.profiles ∧
      p.exu.ladder = image.ladder ∧ p.prc.prices = image.prices ∧ p.srt.windows = image.windows ∧
      liveImage p = image ∧ p.set.save = none ∧ p.set.outcome = .none ∧
      p.lnk = State.reset.lnk ∧ p.ort = State.reset.ort ∧ p.sch = State.reset.sch ∧ p.ifu = State.reset.ifu ∧
      p.web = State.reset.web ∧ p.cut = State.reset.cut ∧
      { p.srt with windows := State.reset.srt.windows } = State.reset.srt)

/-- A good frame on the Station link that carries a request does what the request does; one whose kind has bit 7 set is a
framing fault. On either link a frame with another check than its bytes' raises the link's CRC-discard count, and one with a
length above the link's maximum its framing-discard count, both up to 65,535; the framer hunts again and nothing else happens
(R171 to R173, R181). -/
def Obligations.StationFrameCarriesRequest : Prop :=
  (∀ (c : Instr) (kind tag : Byte) (body : List Byte) (s : State),
    requestOf c = some (kind, tag, body) → c.wf = true → Takes s → s.lnk.stationRx = Framer.hunting →
    ∃ t, exec (.stationFrameReceived (frameBytes kind tag body)) s = .next t ∧ exec c s = .next t) ∧
  (∀ (kind tag : Byte) (body : List Byte) (s : State), kind.msb = true → body.length ≤ 1024 → Undisturbed s →
    s.lnk.stationRx = Framer.hunting →
    ∃ t, exec (.stationFrameReceived (frameBytes kind tag body)) s = .next t ∧ OnlyLink s t ∧
      t.lnk.stationFraming = min (s.lnk.stationFraming + 1) 65535 ∧ t.lnk.stationRx = Framer.hunting ∧
      t.lnk.waiting = s.lnk.waiting) ∧
  (∀ (kind tag : Byte) (body : List Byte) (check : BitVec 16) (s : State), Undisturbed s →
    check ≠ crc16 (le2 body.length ++ [kind, tag] ++ body) →
    let bytes := (0xA5 : Byte) :: (le2 body.length ++ [kind, tag] ++ body ++ le2 check.toNat)
    (body.length ≤ 1024 → s.lnk.stationRx = Framer.hunting →
      ∃ t, exec (.stationFrameReceived bytes) s = .next t ∧ OnlyLink s t ∧
        LinkSame { s with lnk := { s.lnk with stationCrc := min (s.lnk.stationCrc + 1) 65535 } } t) ∧
    (body.length ≤ 12288 → s.lnk.imageRx = Framer.hunting →
      ∃ t, exec (.imageFrameReceived bytes) s = .next t ∧ OnlyLink s t ∧
        LinkSame { s with lnk := { s.lnk with imageCrc := min (s.lnk.imageCrc + 1) 65535 } } t)) ∧
  (∀ (kind tag : Byte) (length : Nat) (s : State), Undisturbed s → length < 65536 →
    let bytes := (0xA5 : Byte) :: (le2 length ++ [kind, tag])
    (1024 < length → s.lnk.stationRx = Framer.hunting →
      ∃ t, exec (.stationFrameReceived bytes) s = .next t ∧ OnlyLink s t ∧
        LinkSame { s with lnk := { s.lnk with stationFraming := min (s.lnk.stationFraming + 1) 65535 } } t) ∧
    (12288 < length → s.lnk.imageRx = Framer.hunting →
      ∃ t, exec (.imageFrameReceived bytes) s = .next t ∧ OnlyLink s t ∧
        LinkSame { s with lnk := { s.lnk with imageFraming := min (s.lnk.imageFraming + 1) 65535 } } t))

/-- A good frame on the Image link: DATA goes to IFU, which frees the tag of a matching response. OK fills its line slot,
which stays FILLED to the end of the event but where the event finds the frame's magazine EMPTY; BUSY leaves the slot AWAITED
without a tag; NO_IMAGE and ROW_RANGE fail the line with that cause: the committed head leaves the queue, the current frame
is SPOILED and its supply abandoned, either's OUTSTANDING tags taking the discard mark, the loss is accounted with that cause
and FRAME_LOST raised, and every slot of the frame is EMPTY. A response to a tag above 7, to a FREE tag, one that names
another image or row, or a malformed one is discarded with STRAY_DATA and its tag unchanged; one that matches an EXPIRED or
discard-marked tag frees the tag and does nothing else. Any other kind of frame is a framing fault. A DATA body is status,
image id, source row, pixel count and the pixels (R73, R74, R77 to R80, R158, R160, R162, R172, R181, R183; that the
abandoned frame is no longer the current one: log 10; a body too short for its fields, or whose pixel bytes are not its
count, is malformed: log 15; the fields such a body does not give: log 6). -/
def Obligations.ImageFrameDelivered : Prop :=
  (∀ body : List Byte, readData body = none ↔ body.length < 9) ∧
  (∀ (st i0 i1 i2 i3 r0 r1 c0 c1 : Byte) (rest : List Byte),
    let count := c0.toNat + 256 * c1.toNat
    readData (st :: i0 :: i1 :: i2 :: i3 :: r0 :: r1 :: c0 :: c1 :: rest) =
      some ⟨st.toNat, i0.toNat + 256 * (i1.toNat + 256 * (i2.toNat + 256 * i3.toNat)), r0.toNat + 256 * r1.toNat, count,
        pixelsOf rest, decide (rest.length = 3 * count)⟩) ∧
  (∀ (r g b : Byte) (rest : List Byte), pixelsOf (r :: g :: b :: rest) = ⟨r, g, b⟩ :: pixelsOf rest) ∧
  (∀ rest : List Byte, rest.length < 3 → pixelsOf rest = []) ∧
  (∀ (kind tag : Byte) (body : List Byte) (s : State), body.length ≤ 12288 → Undisturbed s →
    s.lnk.imageRx = Framer.hunting →
    ∃ t, exec (.imageFrameReceived (frameBytes kind tag body)) s = .next t ∧
      (kind = 0xE0 → LinkSame s t ∧ Settles (takeData tag.toNat body (begin s)) t) ∧
      (kind ≠ 0xE0 → OnlyLink s t ∧ t.lnk.imageFraming = min (s.lnk.imageFraming + 1) 65535)) ∧
  (∀ (tag i f first last row : Nat) (old timer : Option Nat) (info : FetchInfo) (body : List Byte)
    (msg : DataMsg) (s : State),
    s.ifu.tags[tag]? = some (.outstanding info (some i) timer) →
    s.ifu.slots[i]? = some (.awaited f first last row old) → readData body = some msg → msg.status = 0 →
    msg.imageId = info.imageId → msg.row = info.row → msg.count = info.outWidth → msg.complete = true →
    (takeData tag body s).ifu.tags[tag]? = some .free ∧
      (takeData tag body s).ifu.slots[i]? = some (.filled f first last row msg.pixels) ∧
      (∀ j, j ≠ i → (takeData tag body s).ifu.slots[j]? = s.ifu.slots[j]?) ∧
      (∀ j, j ≠ tag → (takeData tag body s).ifu.tags[j]? = s.ifu.tags[j]?)) ∧
  (∀ (tag : Byte) (i f first last row : Nat) (old timer : Option Nat) (info : FetchInfo) (body : List Byte)
    (msg : DataMsg) (s : State), body.length ≤ 12288 → Undisturbed s → s.lnk.imageRx = Framer.hunting →
    s.ifu.tags[tag.toNat]? = some (.outstanding info (some i) timer) →
    s.ifu.slots[i]? = some (.awaited f first last row old) → readData body = some msg → msg.status = 0 →
    msg.imageId = info.imageId → msg.row = info.row → msg.count = info.outWidth → msg.complete = true →
    (∀ h, committedHead s = some h → h.number = f →
      ∃ t, exec (.imageFrameReceived (frameBytes 0xE0 tag body)) s = .next t ∧
        (t.ifu.slots[i]? = some (.filled f first last row msg.pixels) ∨ (t.web.mag h.mag).state = .empty)) ∧
    ((∃ e ∈ s.web.map, e.frame.number = f) → (∀ g ∈ s.sch.queue, g.number ≠ f) → (heldNumbers s).length ≤ 52 →
      ∃ t, exec (.imageFrameReceived (frameBytes 0xE0 tag body)) s = .next t ∧
        t.ifu.slots[i]? = some (.filled f first last row msg.pixels))) ∧
  (∀ (tag i f first last row : Nat) (old timer : Option Nat) (info : FetchInfo) (body : List Byte)
    (msg : DataMsg) (s : State),
    s.ifu.tags[tag]? = some (.outstanding info (some i) timer) →
    s.ifu.slots[i]? = some (.awaited f first last row old) → readData body = some msg →
    msg.imageId = info.imageId → msg.row = info.row →
    (msg.status = 1 → (takeData tag body s).ifu.tags[tag]? = some .free ∧
      (takeData tag body s).ifu.slots[i]? = some (.awaited f first last row none) ∧
      (∀ j, j ≠ i → (takeData tag body s).ifu.slots[j]? = s.ifu.slots[j]?) ∧
      (∀ j, j ≠ tag → (takeData tag body s).ifu.tags[j]? = s.ifu.tags[j]?)) ∧
    (msg.status = 2 ∨ msg.status = 3 → info.frame = f →
      let t := takeData tag body s
      let cause := if msg.status = 2 then FailCause.imageMissing else .rowRange
      let lost := if msg.status = 2 then LossCause.imageMissing else .rowRange
      t.ifu.tags[tag]? = some .free ∧
      ((∃ h, committedHead s = some h ∧ h.number = f) ∨ (∃ c, s.ifu.current = some c ∧ c.frame = f) →
        ∀ x ∈ t.ifu.slots, (∀ (p q r : Nat) (k : Option Nat), x ≠ .awaited f p q r k) ∧
          ∀ (p q r : Nat) (px : List (RGB Byte)), x ≠ .filled f p q r px) ∧
      (∀ h, committedHead s = some h → h.number = f → HeadGone h (setTag tag .free s) t) ∧
      ((∀ h, committedHead s = some h → h.number ≠ f) → ∀ c, s.ifu.current = some c → c.frame = f →
        CurrentGone c (setTag tag .free s) t) ∧
      (∀ (h : Frame) (r : PrintRef) (o : Order) (l : Line), committedHead s = some h → h.number = f →
        h.ref = some r → s.orderAt r.slot r.number = some o → o.line r.line = some l → l.failed = none →
        (∀ g ∈ t.sch.queue, g.number ≠ f) ∧ LossTaken ⟨h, r, lost, .queue, none⟩ s t ∧
        ∃ o' l', t.orderAt r.slot r.number = some o' ∧ o'.line r.line = some l' ∧ l'.failed = some cause) ∧
      (∀ (e : WebEntry) (r : PrintRef) (o : Order) (l : Line), (∀ h, committedHead s = some h → h.number ≠ f) →
        (∃ c, s.ifu.current = some c ∧ c.frame = f) → findEntry f s = some e → e.webState = .exposing →
        e.frame.live = true → e.frame.ref = some r → s.orderAt r.slot r.number = some o → o.line r.line = some l →
        l.failed = none →
        t.ifu.current = none ∧ (findEntry f t).map WebEntry.webState = some .spoiled ∧
        (findEntry f t).map (fun x => x.frame.live) = some false ∧
        LossTaken ⟨e.frame, r, lost, .webMap, none⟩ s t ∧
        ∃ o' l', t.orderAt r.slot r.number = some o' ∧ o'.line r.line = some l' ∧ l'.failed = some cause))) ∧
  (∀ (tag : Byte) (body : List Byte) (s : State), body.length ≤ 12288 → Undisturbed s →
    s.lnk.imageRx = Framer.hunting →
    let held := s.ifu.tags[tag.toNat]?
    let stray := fun (reason : Nat) (given : List Byte) =>
      ∃ t, exec (.imageFrameReceived (frameBytes 0xE0 tag body)) s = .next t ∧ LinkSame s t ∧ OnlyLink s t ∧
        Raises s t [(.strayData, le1 tag.toNat ++ le1 reason ++ given)]
    let absent := le4 (Config.openCode .imageId) ++ le2 (Config.openCode .sourceRow)
    let inUse := fun info : FetchInfo =>
      (∃ slot timer, held = some (.outstanding info slot timer)) ∨ ∃ timer, held = some (.expired info timer)
    (readData body = none → (held = none → stray 0 absent) ∧ (held = some .free → stray 1 absent) ∧
      ∀ info, inUse info → stray 3 absent) ∧
    ∀ msg, readData body = some msg →
      let given := le4 msg.imageId ++ le2 msg.row
      (held = none → stray 0 given) ∧ (held = some .free → stray 1 given) ∧
      ∀ info, inUse info →
        let bad := 3 < msg.status ∨ (msg.status = 0 ∧ (msg.count ≠ info.outWidth ∨ msg.complete = false))
        (msg.imageId ≠ info.imageId ∨ msg.row ≠ info.row → stray 2 given) ∧
        (msg.imageId = info.imageId → msg.row = info.row → bad → stray 3 given) ∧
        (msg.imageId = info.imageId → msg.row = info.row → ¬ bad →
          (∃ timer, held = some (.expired info timer)) ∨ (∃ timer, held = some (.outstanding info none timer)) →
          (takeData tag.toNat body s).ifu = { s.ifu with tags := s.ifu.tags.set tag.toNat .free } ∧
          ∃ t, exec (.imageFrameReceived (frameBytes 0xE0 tag body)) s = .next t ∧ LinkSame s t ∧ Raises s t [] ∧
            Settles (s.setIfu { s.ifu with tags := s.ifu.tags.set tag.toNat .free }) t))

/-- A frame gap of 20 ms discards the frame in progress on its link as a framing fault; between frames it has no effect
(R172). -/
def Obligations.GapTimeoutDiscards : Prop :=
  ∀ s : State, Undisturbed s →
    (s.lnk.stationRx.phase ≠ .hunt → ∃ t, exec (.frameGapTimeout .station) s = .next t ∧ OnlyLink s t ∧
      t.lnk.stationRx = Framer.hunting ∧ t.lnk.stationFraming = min (s.lnk.stationFraming + 1) 65535 ∧
      t.lnk.imageRx = s.lnk.imageRx ∧ t.lnk.imageFraming = s.lnk.imageFraming ∧ t.lnk.waiting = s.lnk.waiting) ∧
    (s.lnk.imageRx.phase ≠ .hunt → ∃ t, exec (.frameGapTimeout .image) s = .next t ∧ OnlyLink s t ∧
      t.lnk.imageRx = Framer.hunting ∧ t.lnk.imageFraming = min (s.lnk.imageFraming + 1) 65535 ∧
      t.lnk.stationRx = s.lnk.stationRx ∧ t.lnk.stationFraming = s.lnk.stationFraming ∧
      t.lnk.waiting = s.lnk.waiting) ∧
    (s.lnk.stationRx.phase = .hunt →
      ∃ t, exec (.frameGapTimeout .station) s = .next t ∧ LinkSame s t ∧ OnlyLink s t) ∧
    (s.lnk.imageRx.phase = .hunt → ∃ t, exec (.frameGapTimeout .image) s = .next t ∧ LinkSame s t ∧ OnlyLink s t)

/-- When the transmitter finishes a frame it takes the oldest reply, or else the waiting notice with the highest priority
and among equals the earliest occurrence, or is idle (R178). -/
def Obligations.TransmitterTakesNext : Prop :=
  (∀ (s : State) (f : OutFrame) (rest : List OutFrame), Undisturbed s → sendingResetReply s = false →
    s.lnk.replies = f :: rest →
    ∃ t, exec .transmitComplete s = .next t ∧ t.lnk.tx = some f ∧
      (s.lnk.waiting = [] → t.ports = [.stationFrame (frameBytes f.kind f.tag f.body)] ∧ t.lnk.replies = rest ∧ t.lnk.notices = s.lnk.notices ∧ LinkSame s t ∧ OnlyLink s t)) ∧
  (∀ (s : State) (n : Notice), Undisturbed s → sendingResetReply s = false → s.lnk.waiting = [] →
    s.lnk.replies = [] → s.lnk.notices.Pairwise (fun a b => a.occurrence < b.occurrence) → n ∈ s.lnk.notices →
    (∀ m ∈ s.lnk.notices, m.priority < n.priority ∨ (m.priority = n.priority ∧ n.occurrence ≤ m.occurrence)) →
    ∃ t, exec .transmitComplete s = .next t ∧ t.lnk.tx = some ⟨n.kind.code, 0, n.body, false⟩ ∧
      t.lnk.notices = s.lnk.notices.erase n ∧ t.lnk.replies = [] ∧ LinkSame s t ∧ OnlyLink s t) ∧
  (∀ s : State, Undisturbed s → sendingResetReply s = false → s.lnk.waiting = [] → s.lnk.replies = [] →
    s.lnk.notices = [] →
    ∃ t, exec .transmitComplete s = .next t ∧ t.lnk.tx = none ∧ LinkSame s t ∧ OnlyLink s t)

/-- A notice is queued at its kind's priority when fewer than 32 wait; it is not sent at priority 0, and with 32 waiting it
is discarded and the overrun flag set (R177). -/
def Obligations.NoticeQueued : Prop :=
  ∀ (k : NoticeKind) (body : List Byte) (s : State),
    (∀ p, s.set.settings.get (0x40 + k.index) = some p →
      (p = 0 → sendNotice k body s = s) ∧
      (p ≠ 0 → s.lnk.notices.length < 32 → sendNotice k body s = s.setLnk { s.lnk with
        notices := s.lnk.notices ++ [⟨k, p, s.lnk.occurrence, body⟩]
        occurrence := s.lnk.occurrence + 1 }) ∧
      (p ≠ 0 → 32 ≤ s.lnk.notices.length → sendNotice k body s = s.setLnk { s.lnk with overrun := true })) ∧
    (s.set.settings.get (0x40 + k.index)).isSome = true ∧ k.code.toNat = 0xC0 + k.index ∧ k.index < 18

/-! ### Image fetch -/

/-- When a FETCH has been sent, the fetch timer of its tag starts with the timeout in force, and the next waiting FETCH
begins (R71, R181; a later FETCH of the same tag still waiting keeps its timer stopped: the model's choice, log 29). -/
def Obligations.FetchSentStartsTimer : Prop :=
  (∀ (s : State) (f : FetchFrame), Undisturbed s → s.lnk.imageTx = some f →
    ∃ t, exec .fetchSent s = .next t ∧ LinkSame s t ∧ t.lnk.imageTx = s.lnk.imageWaiting.head? ∧
      t.lnk.imageWaiting = s.lnk.imageWaiting.tail ∧
      (∀ info slot, s.ifu.tags[f.tag]? = some (.outstanding info slot none) →
        (∀ g ∈ s.lnk.imageWaiting, g.tag ≠ f.tag) →
        OnlyLink (s.setIfu { s.ifu with
          tags := s.ifu.tags.set f.tag (.outstanding info slot (some s.set.settings.fetchTimeout)) }) t) ∧
      ((∀ info slot, s.ifu.tags[f.tag]? ≠ some (.outstanding info slot none)) ∨
        (∃ g ∈ s.lnk.imageWaiting, g.tag = f.tag) → OnlyLink s t)) ∧
  (∀ s : State, Undisturbed s → s.lnk.imageTx = none →
    ∃ t, exec .fetchSent s = .next t ∧ LinkSame s t ∧ OnlyLink s t)

/-- A fetch timer that runs out puts its tag in quarantine for four times the timeout in force and counts an expiry; a
quarantine that ends frees the tag; a timer that does not run has no expiry (R81 to R83). -/
def Obligations.FetchTimers : Prop :=
  (∀ (s : State) (i : Fin 8) (info : FetchInfo) (slot : Option Nat) (n : Nat), Undisturbed s →
    s.ifu.tags[i.val]? = some (.outstanding info slot (some n)) →
    ∃ t, exec (.fetchTimeout i) s = .next t ∧ LinkSame s t ∧ t.ifu.expiries = s.ifu.expiries + 1 ∧
      t.ifu.tags[i.val]? = some (.expired info (4 * s.set.settings.fetchTimeout)) ∧
      Settles (s.setIfu { s.ifu with
        tags := s.ifu.tags.set i.val (.expired info (4 * s.set.settings.fetchTimeout))
        expiries := s.ifu.expiries + 1 }) t) ∧
  (∀ (s : State) (i : Fin 8), Undisturbed s →
    (∀ info slot n, s.ifu.tags[i.val]? ≠ some (.outstanding info slot (some n))) →
    ∃ t, exec (.fetchTimeout i) s = .next t ∧ LinkSame s t ∧ OnlyLink s t) ∧
  (∀ (s : State) (i : Fin 8) (info : FetchInfo) (n : Nat), Undisturbed s →
    s.ifu.tags[i.val]? = some (.expired info n) →
    ∃ t, exec (.quarantineExpiry i) s = .next t ∧ LinkSame s t ∧
      (∀ info' n', t.ifu.tags[i.val]? ≠ some (.expired info' n')) ∧
      Settles (s.setIfu { s.ifu with tags := s.ifu.tags.set i.val .free }) t) ∧
  (∀ (s : State) (i : Fin 8), Undisturbed s → (∀ info n, s.ifu.tags[i.val]? ≠ some (.expired info n)) →
    ∃ t, exec (.quarantineExpiry i) s = .next t ∧ LinkSame s t ∧ OnlyLink s t)

/-- The window is the current frame's next min(D, lines left) lines, then, once a print head is committed or offered, its
first lines up to the read-ahead depth D together (R69, R70; a strip and a frame whose supply is abandoned take no place in
it: log 10). A fetch is issued exactly while a line of the window is served by no slot, or a slot is AWAITED without a tag, a
tag is FREE and, for a line, a slot is EMPTY (and the frame's order is in its slot: log 43); it is for the first such need,
the current frame's before the head's; it takes the lowest FREE tag and, for a line, the lowest EMPTY slot, and its FETCH
goes behind those that wait; the first one issued for the head commits it (R36, R71, R181). At a slot that becomes FILLED the
committed head is primed when every one of its first min(D, Lf) lines is FILLED (R72; at no other moment: the model's choice,
log 37). A line due from a FILLED slot is sent to the head, and the slot is EMPTY after its last line, as every slot of the
frame is after line Lf − 1 (R69, R75); a line due without one leaves the head dark, spoils the frame, its loss accounted with
MISSING_LINE and FRAME_LOST raised, and abandons its supply, its OUTSTANDING tags taking the discard mark (R73, R74, R76; the
frame is then no longer the current one: log 10). -/
def Obligations.ImageRowsFetched : Prop :=
  (∀ s : State,
    let depth := s.set.settings.readAhead
    let current : List Supply := match s.ifu.current with
      | some ⟨frame, .print r, m, lf, next⟩ => [⟨frame, r, m, lf, next, min depth (lf - next), false⟩]
      | some ⟨_, .strip, _, _, _⟩ => []
      | none => []
    let offered := fun f : Frame => s.web.active = some f.mag ∧ ((s.web.mag f.mag).state = .ready ∨
      ((s.web.mag f.mag).state = .calNeeded ∧ s.set.settings.calibrationRequired = 0))
    ((supplies s).map Supply.count).sum ≤ depth ∧
    (∀ f rest r, s.sch.queue = f :: rest → f.job = .print r → s.sch.committed = true ∨ offered f →
      supplies s = current ++
        [⟨f.number, r, f.mag, f.lf, 0, min (depth - (current.map Supply.count).sum) f.lf, true⟩]) ∧
    (s.sch.queue = [] → supplies s = current) ∧
    (∀ f rest, s.sch.queue = f :: rest → f.job = .strip ∨ (s.sch.committed = false ∧ ¬ offered f) →
      supplies s = current)) ∧
  (∀ (s : State) (x : Supply),
    let served := fun k => s.ifu.slots.any (LineSlot.serves x.frame k) = true
    (∀ k, needOf s x = some (.line k) → x.start ≤ k ∧ k < x.start + x.count ∧ ¬ served k ∧
      (∀ j, x.start ≤ j → j < k → served j) ∧
      ∀ (i first last row : Nat), s.ifu.slots[i]? = some (.awaited x.frame first last row none) → k < first) ∧
    (∀ i row, needOf s x = some (.retry i row) → ∃ first last,
      s.ifu.slots[i]? = some (.awaited x.frame first last row none) ∧
      (∀ j, x.start ≤ j → j < x.start + x.count → j < first → served j) ∧
      ∀ (j first' last' row' : Nat), s.ifu.slots[j]? = some (.awaited x.frame first' last' row' none) →
        first ≤ first') ∧
    (needOf s x = none → (∀ j, x.start ≤ j → j < x.start + x.count → served j) ∧
      ∀ (i first last row : Nat), s.ifu.slots[i]? ≠ some (.awaited x.frame first last row none))) ∧
  (∀ (s : State) (xs : List Supply) (x : Supply) (n : Need), firstNeed s xs = some (x, n) →
    ∃ pre post, xs = pre ++ x :: post ∧ (∀ y ∈ pre, needOf s y = none) ∧ needOf s x = some n) ∧
  (∀ (s : State) (xs : List Supply), firstNeed s xs = none ↔ ∀ x ∈ xs, needOf s x = none) ∧
  (∀ s : State, (∃ t, issueOne s = some t) ↔
    (∃ i : Nat, s.ifu.tags[i]? = some .free) ∧ ∃ x n, firstNeed s (supplies s) = some (x, n) ∧
      lineOf s x.ref ≠ none ∧ ∀ k, n = .line k → ∃ i : Nat, s.ifu.slots[i]? = some .empty) ∧
  (∀ s : State, s.ifu.tags.length = 8 → issueOne (ifuService s) = none) ∧
  (∀ s t : State, issueOne s = some t →
    ∃ (tag i : Nat) (x : Supply) (n : Need) (l : Line) (first last row : Nat),
      firstNeed s (supplies s) = some (x, n) ∧ lineOf s x.ref = some l ∧
      s.ifu.tags[tag]? = some .free ∧ (∀ j, j < tag → s.ifu.tags[j]? ≠ some .free) ∧
      (∀ k, n = .line k → s.ifu.slots[i]? = some .empty ∧ (∀ j, j < i → s.ifu.slots[j]? ≠ some .empty) ∧
        row = l.rows.1 + k * l.rows.2 / x.lf ∧
        (k < x.lf → 0 < l.rows.2 → first ≤ k ∧ k ≤ last)) ∧
      (∀ j r, n = .retry j r → i = j ∧ row = r ∧
        s.ifu.slots[i]? = some (.awaited x.frame first last row none)) ∧
      t.ifu.tags = s.ifu.tags.set tag (.outstanding ⟨x.frame, l.imageId, row, 12 * (s.web.mag x.mag).width⟩ (some i)
        none) ∧
      t.ifu.slots = s.ifu.slots.set i (.awaited x.frame first last row (some tag)) ∧
      t.lnk.imageTx.toList ++ t.lnk.imageWaiting = s.lnk.imageTx.toList ++ s.lnk.imageWaiting ++ [⟨tag,
        le4 l.imageId ++ le2 row ++ le2 l.columns.1 ++ le2 l.columns.2 ++ le2 (12 * (s.web.mag x.mag).width)⟩] ∧
      t.sch = { s.sch with committed := s.sch.committed || (match n with
        | .line _ => x.head
        | .retry _ _ => false) }) ∧
  (∀ (s : State) (i f first last row : Nat) (tag : Option Nat) (pixels : List (RGB Byte)) (h : Frame),
    s.ifu.slots[i]? = some (.awaited f first last row tag) → committedHead s = some h → s.ifu.primed = false →
    let t := fillSlot i pixels s
    t.ifu.slots = s.ifu.slots.set i (.filled f first last row pixels) ∧
    (t.ifu.primed = true ↔ h.number = f ∧ ∀ k, k < min s.set.settings.readAhead h.lf →
      ∃ (j a b c : Nat) (px : List (RGB Byte)), t.ifu.slots[j]? = some (.filled h.number a b c px) ∧ a ≤ k ∧ k ≤ b)) ∧
  (∀ (s : State) (k : Nat) (c : Current), s.ifu.current = some c →
    (c.job = .strip → (lineDue k s).ports = s.ports ++ [.headLine k .patch]) ∧
    (∀ (r : PrintRef) (i a b row : Nat) (px : List (RGB Byte)), c.job = .print r →
      s.ifu.slots[i]? = some (.filled c.frame a b row px) → a ≤ k → k ≤ b →
      (∀ (j a' b' row' : Nat) (px' : List (RGB Byte)), j < i →
        s.ifu.slots[j]? = some (.filled c.frame a' b' row' px') → k < a' ∨ b' < k) →
      (lineDue k s).ports = s.ports ++ [.headLine k (.row px)] ∧
      (lineDue k s).ifu.slots[i]? = some (if k = b ∨ c.lf ≤ k + 1 then .empty else .filled c.frame a b row px) ∧
      (lineDue k s).ifu.current = (if k + 1 < c.lf then some { c with next := k + 1 } else none) ∧
      (c.lf ≤ k + 1 → CurrentGone c s (lineDue k s))) ∧
    (∀ r : PrintRef, c.job = .print r → (∀ (i a b row : Nat) (px : List (RGB Byte)),
        s.ifu.slots[i]? = some (.filled c.frame a b row px) → k < a ∨ b < k) →
      let t := lineDue k s
      .headLine k .dark ∈ t.ports ∧ CurrentGone c s t ∧
      (∀ x ∈ t.ifu.slots, LineSlot.serves c.frame k x = false) ∧
      (∀ e, findEntry c.frame s = some e → e.webState = .exposing →
        (findEntry c.frame t).map WebEntry.webState = some .spoiled ∧
        (e.frame.isStrip = false → (findEntry c.frame t).map (fun x => x.frame.live) = some false)) ∧
      (∀ (e : WebEntry) (q : PrintRef), findEntry c.frame s = some e → e.webState = .exposing → e.frame.live = true →
        e.frame.ref = some q →
        t.ort = (accountLoss ⟨e.frame, q, .missingLine, .webMap, some k⟩ s).ort ∧
          LossTaken ⟨e.frame, q, .missingLine, .webMap, some k⟩ s t))) ∧
  (∀ s : State, s.ifu.current = none → ∀ k, lineDue k s = drive (.headLine k .dark) s)

/-! ### The exposure head and the exposure feed -/

/-- The warm-up completion makes a WARMING head READY and a waking part ACTIVE. A head fault makes the head FAULT from READY,
WARMING and EXPOSING, and a waking part ACTIVE; while a frame is exposed it is SPOILED and dead, its mark is not printed, its
supply is abandoned with the discard mark on its OUTSTANDING tags, and the run goes on, as all this does for a frame already
SPOILED. A part that stops waking raises AWAKE, and a fault HEAD_FAULT with the head state before it and the frame exposed,
ahead of the notices of its loss (that order: log 21); the loss of a live print is accounted with HEAD_FAULT and FRAME_LOST
raised. In other states both are discarded (R54, R56, R73, R74, R98, R158, R162, R189; that the spoiled frame is no longer
IFU's current frame is the model's choice, log 10). -/
def Obligations.WarmUpAndHeadFault : Prop :=
  let wakes := fun s : State => if s.lnk.power = .waking then [(NoticeKind.awake, ([] : List Byte))] else []
  let spoiled := fun (s : State) (e : WebEntry) =>
    wakes s ++ [(NoticeKind.headFault, le1 3 ++ le2 e.frame.number)]
  (∀ s : State, Undisturbed s →
    (s.exu.head = .warming → ∃ t, exec .warmUpCompletion s = .next t ∧
      t.lnk.power = (if s.lnk.power = .waking then .active else s.lnk.power) ∧
      Raises s t (wakes s) ∧ Settles (s.setExu { s.exu with head := .ready }) t) ∧
    (s.exu.head ≠ .warming → ∃ t, exec .warmUpCompletion s = .next t ∧ LinkSame s t ∧ OnlyLink s t)) ∧
  (∀ s : State, Undisturbed s →
    (s.exu.head = .ready ∨ s.exu.head = .warming → ∃ t, exec .headFaultEvent s = .next t ∧
      t.lnk.power = (if s.lnk.power = .waking then .active else s.lnk.power) ∧
      Raises s t (wakes s ++ [(.headFault, le1 (if s.exu.head = .ready then 2 else 1) ++ le2 0xFFFF)]) ∧
      OnlyLink (s.setExu { s.exu with head := .fault }) t) ∧
    (s.exu.head = .fault ∨ s.exu.head = .off →
      ∃ t, exec .headFaultEvent s = .next t ∧ LinkSame s t ∧ OnlyLink s t) ∧
    (∀ e r, s.exu.head = .exposing → s.web.run = some r → s.web.newest = some e → e.webState = .exposing →
      (∀ x ∈ s.web.map, x.frame.number = e.frame.number → x = e) →
      ∃ t, exec .headFaultEvent s = .next t ∧ t.exu = { s.exu with head := .fault } ∧ t.web.run = some r ∧
        t.web.map = s.web.map.map (fun x => if x.frame.number = e.frame.number then { x with
          webState := .spoiled
          mark := if x.mark = .pending then .none else x.mark
          frame := { x.frame with live := x.frame.live && x.frame.isStrip } } else x) ∧
        t.set = s.set ∧ t.prc = s.prc ∧ SrtKeeps s.srt t.srt ∧ RaisesFirst s t (spoiled s e) ∧
        (e.frame.live = false ∨ e.frame.isStrip = true → Raises s t (spoiled s e)) ∧
        (∀ q, e.frame.live = true → e.frame.ref = some q →
          LossTaken ⟨e.frame, q, .headFault, .webMap, none⟩ s t) ∧
        (∀ c, s.ifu.current = some c → c.frame = e.frame.number → CurrentGone c s t)) ∧
    (∀ e r, s.exu.head = .exposing → s.web.run = some r → s.web.newest = some e → e.webState = .spoiled →
      (∀ x ∈ s.web.map, x.frame.number = e.frame.number → x = e) →
      ∃ t, exec .headFaultEvent s = .next t ∧ t.exu = { s.exu with head := .fault } ∧ t.web.run = some r ∧
        t.web.map = s.web.map.map (fun x => if x.frame.number = e.frame.number then { x with
          mark := if x.mark = .pending then .none else x.mark } else x) ∧
        Raises s t (spoiled s e) ∧ OrtKeeps s.ort t.ort ∧ t.set = s.set ∧ t.prc = s.prc ∧ SrtKeeps s.srt t.srt ∧
        (∀ c, s.ifu.current = some c → c.frame = e.frame.number → CurrentGone c s t)))

/-- With the seven conditions of R99 and no run in progress (the latter is the model's choice: a head that is READY again
during the dark rest of a run starts no second one, log 16) a run starts for the head frame: its entry joins the web map at
F_in, the head is EXPOSING with the codes and dwells computed, the frame is IFU's current frame, and the feed is commanded for
Lf + G steps at the line period in use; a limited frame raises EXPOSURE_LIMITED with its codes and the channels limited. CUT
creates the entry's gap record, OPEN, and with no next cut chooses one: on an empty web map the leading cut at F_in, its
target moved by the carried record's offset, or by the registration offset without one; where the carried gap starts at F_in
the leading cut is omitted, the frame flagged unregistered, the carried record discarded, and the trailing cut is next (R53,
R97, R99, R101, R108, R110, R111). Otherwise nothing happens. An append in the cutter's FAULT chooses no cut (the model's
choice, log 51). On a READY web without a run, the active magazine becomes EMPTY where its remaining is below Lf + G +
path_fixed of a head frame that carries it: MAG_EMPTY RUN_TEST is raised, its frames leave the queue, the committed head with
its supply, and its mark is NONE. An event that changes the head, completes a run, makes the web READY, advances C or takes an
entry off the map leaves no such head (R38, R74, R89, R100). -/
def Obligations.RunStarts : Prop :=
  let short := fun (s : State) (f : Frame) (m : Mag) => s.web.state = .ready ∧ s.web.run = none ∧
    s.web.active = some m ∧ s.sch.queue.head? = some f ∧ f.mag = m ∧
    (s.web.mag m).remaining < f.lf + f.gap + s.set.settings.pathFixed
  (∀ s : State, runReady s = true ↔ s.web.run = none ∧ ∃ f rest, s.sch.queue = f :: rest ∧
    s.web.state = .ready ∧ s.exu.head = .ready ∧
    (s.sch.committed = true ∧ s.ifu.primed = true ∧ s.web.active = some f.mag) ∧
    ((s.web.mag f.mag).state = .ready ∨ ((s.web.mag f.mag).state = .calNeeded ∧
      (f.isStrip = true ∨ s.set.settings.calibrationRequired = 0))) ∧
    f.lf + f.gap + s.set.settings.pathFixed ≤ (s.web.mag f.mag).remaining ∧
    (s.web.fIn : Int) + f.lf + f.gap - s.web.c - s.set.settings.pathFixed ≤ s.set.settings.loopMax ∧
    s.web.map.length < 32) ∧
  (∀ s : State, Undisturbed s → runReady s = true →
    ∃ t f q, exec .exposureRunStart s = .next t ∧ LinkSame s t ∧ s.sch.queue = f :: q ∧
      (let x := computeExposure (exposureInput s f)
       let e : WebEntry := ⟨{ f with exposure := some x.exposure }, s.web.fIn, .exposing,
        if 10 ≤ f.gap then .pending else .none, if 10 ≤ f.gap then some (s.web.fIn + f.lf + f.gap / 2) else none⟩
       t.web.map.map WebEntry.unflagged = (s.web.map ++ [e]).map WebEntry.unflagged ∧
       t.web.run = some ⟨0, f.lf, f.gap, x.period⟩ ∧
       .headSetup x.exposure.dwells x.period ∈ t.ports ∧
       (∀ steps period, .exposureRun steps period ∈ t.ports ↔ steps = f.lf + f.gap ∧ period = x.period) ∧
       (let bit := fun (b : Bool) (n : Nat) => if b then n else 0
        let limits := bit x.codeLimited.r 1 + bit x.codeLimited.g 2 + bit x.codeLimited.b 4 + bit x.dwellLimited.r 8 +
          bit x.dwellLimited.g 16 + bit x.dwellLimited.b 32
        Raises s t (if x.exposure.limited then [(.exposureLimited, le2 f.number ++
          le4 ((f.ref.map PrintRef.number).getD 0xFFFFFFFF) ++ le1 ((f.ref.map PrintRef.line).getD 0xFF) ++
          le2 x.exposure.codes.r ++ le2 x.exposure.codes.g ++ le2 x.exposure.codes.b ++ le1 limits)] else []))) ∧
      (let mark := if 10 ≤ f.gap then some (s.web.fIn + f.lf + f.gap / 2) else none
       let lead : Int := (s.cut.carried.bind fun z => z.gap.offset).getD s.cut.offset
       let feeds := fun x : NextCut => t.cut.nextCut = some x ∧ ((s.web.c : Int) < x.target → t.cut.state = .feeding)
       t.cut.gaps.map GapRecord.unsearched = s.cut.gaps.map GapRecord.unsearched ++
        [⟨f.number, s.web.fIn + f.lf, f.gap, mark, .undecided, none, none⟩] ∧
       (s.cut.nextCut ≠ none ∨ s.cut.state = .fault →
        t.cut.nextCut = s.cut.nextCut ∧ t.cut.leadingMade = s.cut.leadingMade ∧ t.cut.state = s.cut.state) ∧
       (s.web.map = [] → s.cut.gaps = [] → s.cut.nextCut = none → s.cut.state ≠ .fault → s.cut.leadingMade = false →
        ((∀ z, s.cut.carried = some z → z.gap.gapStart ≠ s.web.fIn) → t.cut.leadingMade = false ∧
          feeds ⟨.leading, f.number, s.web.fIn, s.web.fIn + lead⟩) ∧
        (∀ z, s.cut.carried = some z → z.gap.gapStart = s.web.fIn →
          t.cut.leadingMade = true ∧ t.cut.carried = none ∧ (∀ e ∈ t.web.map, e.frame.unregistered = true) ∧
          feeds ⟨.trailing, f.number, s.web.fIn + f.lf, (s.web.fIn + f.lf : Nat) + s.cut.offset⟩))) ∧
      t.exu = { s.exu with head := .exposing } ∧
      t.ifu.current = some ⟨f.number, f.job, f.mag, f.lf, 0⟩ ∧
      t.web.flushTimer = none ∧ t.web.flush = none ∧ t.web.active = s.web.active ∧
      t.web.fIn = s.web.fIn ∧ t.web.c = s.web.c ∧
      MagKeeps s.web.magA t.web.magA ∧ MagKeeps s.web.magB t.web.magB ∧
      OrtKeeps s.ort t.ort ∧ SrtKeeps s.srt t.srt ∧ t.prc = s.prc ∧ t.set = s.set) ∧
  (∀ s : State, Undisturbed s → runReady s = false →
    ∃ t, exec .exposureRunStart s = .next t ∧ LinkSame s t ∧ OnlyLink s t) ∧
  (∀ s : State,
    (∀ f m, short s f m → (s.web.mag m).state ≠ .empty →
      let t := runTest s
      (t.web.mag m) = { s.web.mag m with state := .empty } ∧ t.sch.queue = s.sch.queue.filter (fun g => g.mag != m) ∧
      t.sch.mark m = .none ∧ (∀ h, committedHead s = some h → h.mag = m → HeadGone h s t) ∧
      t.web.map = s.web.map ∧ t.web.run = none ∧
      RaisesFirst s t [(.magEmpty, le1 m.code ++ le1 0 ++ le4 (s.web.mag m).remaining)]) ∧
    ((∀ f m, ¬ short s f m) → runTest s = s)) ∧
  (∀ (c : Instr) (s : State), s.lnk.waiting = [] → c ≠ .powerOnReset →
    (∀ bytes, c ≠ .stationFrameReceived bytes ∧ c ≠ .imageFrameReceived bytes) →
    ∃ t, exec c s = .next t ∧
      (t.sch.queue.head? ≠ s.sch.queue.head? ∨ (s.web.run ≠ none ∧ t.web.run = none) ∨
          (s.web.state ≠ .ready ∧ t.web.state = .ready) ∨ s.web.c < t.web.c ∨ t.web.map.length < s.web.map.length →
        ∀ f m, short t f m → (t.web.mag m).state = .empty))

/-- An exposure-feed step of a run or of a flush raises F_in by 1 and lowers the active magazine's remaining by 1. Step j of
a run below Lf is the line-due event for line j, and the rest of the part is left as that event leaves it; step Lf + G div 2
prints the mark of an entry whose mark is PENDING, which is then PRINTED; no other step beyond the lines changes a mark. The
Lf + G-th step completes the run, its frame EXPOSED where it was EXPOSING and else as it was, SPOILED, and the head READY
again. A step beyond the lines changes no entry but so, and no order, and takes no frame of a magazine with paper out of the
queue; one that does not complete the run changes WEB and the notices alone. A flush goes on short of its target with paper
left, also where the step brings the loop to loop_max; it ends at the target, its newest entry's flush end plus path_fixed,
and with the roll, which is then EMPTY. A step that brings remaining below the low mark raises MAG_LOW once (at a length
already 0 too: log 54). With no feed driven the step is discarded, and a flush that pauses at loop_max is kept (R88, R98,
R102, R103, R105). -/
def Obligations.FeedSteps : Prop :=
  let advances := fun (s t : State) (m : Mag) =>
    t.web.fIn = s.web.fIn + 1 ∧ t.web.c = s.web.c ∧ t.web.active = s.web.active ∧
    (t.web.mag m).remaining = (s.web.mag m).remaining - 1 ∧ MagKeeps (s.web.mag m.other) (t.web.mag m.other) ∧
    t.web.map.map (fun e => (e.frame.number, e.start)) = s.web.map.map (fun e => (e.frame.number, e.start)) ∧
    SrtKeeps s.srt t.srt ∧ t.prc = s.prc ∧ t.set = s.set
  let low := fun (s : State) (m : Mag) => magLowNotice s m (s.web.mag m).lowReported ((s.web.mag m).remaining - 1)
  (∀ (s : State) (r : Run) (m : Mag), Undisturbed s → s.web.run = some r → s.web.active = some m → s.web.map ≠ [] →
    s.web.state ≠ .clearing →
    ∃ t, exec .exposureFeedStep s = .next t ∧ LinkSame s t ∧ advances s t m ∧
      (r.step + 1 ≠ r.lf + r.gap → t.web.run = some { r with step := r.step + 1 } ∧ t.exu = s.exu) ∧
      (r.step + 1 = r.lf + r.gap → t.web.run = none ∧ (∀ e, t.web.newest = some e → e.webState ≠ .exposing) ∧
        (let v := if r.step < r.lf then lineDue r.step (begin s) else s
         ∀ e, s.web.newest = some e → t.web.map.map WebEntry.webState = v.web.map.map fun x =>
          if x.frame.number = e.frame.number ∧ x.webState = .exposing then .exposed else x.webState) ∧
        t.exu = { s.exu with head := if s.exu.head = .exposing then .ready else s.exu.head }) ∧
      (r.lf ≤ r.step → Raises s t (low s m)) ∧ (∀ x ∈ low s m, RaisesAmong s t x) ∧
      (r.step < r.lf → (lineDue r.step (begin s)).ports <+: t.ports ∧ (r.step + 1 ≠ r.lf + r.gap →
        let u := feedOne (lineDue r.step (begin s))
        Settles { u with web := { u.web with run := some { r with step := r.step + 1 } } } t)) ∧
      (∀ e, r.lf ≤ r.step → r.step = r.lf + r.gap / 2 → s.web.newest = some e → e.mark = .pending →
        .headMark ∈ t.ports ∧ t.web.newest.map WebEntry.mark = some .printed ∧
        t.web.map.map WebEntry.mark =
          s.web.map.map (fun x => if x.frame.number = e.frame.number then .printed else x.mark)) ∧
      (∀ e, r.lf ≤ r.step → r.step ≠ r.lf + r.gap / 2 ∨ e.mark ≠ .pending → s.web.newest = some e →
        t.web.map.map WebEntry.mark = s.web.map.map WebEntry.mark) ∧
      (∀ e, r.lf ≤ r.step → s.web.newest = some e →
        t.web.map = s.web.map.map (fun x => if x.frame.number = e.frame.number then { x with
          mark := if r.step = r.lf + r.gap / 2 ∧ e.mark = .pending then .printed else x.mark
          webState := if r.step + 1 = r.lf + r.gap ∧ x.webState = .exposing then .exposed else x.webState } else x) ∧
        (r.step + 1 ≠ r.lf + r.gap → OnlyLink (s.setWeb t.web) t) ∧
        OrtKeeps s.ort t.ort ∧ QueueKeeps s t ∧ IfuKeeps s.ifu t.ifu ∧ CutKeeps s.cut t.cut)) ∧
  (∀ (s : State) (m : Mag), Undisturbed s → s.web.run = none → s.web.active = some m → flushDriven s = true →
    s.web.map ≠ [] → s.web.state ≠ .clearing →
    ∃ t, exec .exposureFeedStep s = .next t ∧ LinkSame s t ∧ advances s t m ∧ t.web.run = none ∧ t.exu = s.exu ∧
      t.web.map = s.web.map ∧ Raises s t (low s m) ∧
      (∀ target, s.web.flush = some target → s.web.fIn + 1 < target → 1 < (s.web.mag m).remaining →
        t.web.flush ≠ none) ∧
      (∀ e, s.web.newest = some e → s.web.flush = some (flushEnd s e + s.set.settings.pathFixed) →
        flushEnd s e + s.set.settings.pathFixed ≤ s.web.fIn + 1 → t.web.flush = none) ∧
      ((s.web.mag m).remaining ≤ 1 → t.web.flush = none ∧ (t.web.mag m).state = .empty)) ∧
  (∀ s : State, Undisturbed s → s.web.run = none → flushDriven s = false →
    ∃ t, exec .exposureFeedStep s = .next t ∧ LinkSame s t ∧ OnlyLink s t)

/-- The flush timer's expiry begins a flush to the newest entry's flush end plus path_fixed; a disarmed timer does not expire
(R104, R105). Without a run the feed is driven for a flush while F_in is below the target, the loop below loop_max and
remaining above 0 (R105), the cutter feed toward a target ahead while the web is READY or CHANGEOVER and C below the cutter
limit (R112); an event after which that is so and was not before, or for another target, commands the feed, and one after
which it is no longer so stops it: so a flush begins, pauses at loop_max, resumes and ends (that the ports record what the
part drives is the model's form, log 20). The arming test arms the timer with the delay in force when the web is READY, no run
or flush is in progress, the queue holds no frame for the active magazine and the newest entry's flush end exceeds F_in −
path_fixed, leaves a timer that runs as it is (the model's choice, log 55), and disarms it when that flush end does not; an
event that completes a run, takes a frame into or out of the queue, or makes the web READY leaves the timer so (R104). -/
def Obligations.FlushTimerExpires : Prop :=
  let needed := fun s : State => ∃ e, s.web.newest = some e ∧
    s.web.fIn < e.start + e.frame.lf + e.frame.gap + s.set.settings.markWindow + s.set.settings.pathFixed
  let still := fun s : State => s.web.state = .ready ∧ s.web.run = none ∧ s.web.flush = none ∧
    ∀ m, s.web.active = some m → ∀ f ∈ s.sch.queue, f.mag ≠ m
  (∀ s : State,
    (needed s → still s → s.web.flushTimer = none →
      flushArmTest s = s.setWeb { s.web with flushTimer := some s.set.settings.flushDelay }) ∧
    (needed s → ¬ still s ∨ s.web.flushTimer ≠ none → flushArmTest s = s) ∧
    (¬ needed s → flushArmTest s = s.setWeb { s.web with flushTimer := none })) ∧
  (∀ (c : Instr) (s : State), s.lnk.waiting = [] → c ≠ .powerOnReset →
    (∀ bytes, c ≠ .stationFrameReceived bytes ∧ c ≠ .imageFrameReceived bytes) →
    ∃ t, exec c s = .next t ∧
      ((s.web.run ≠ none ∧ t.web.run = none) ∨ (s.web.state ≠ .ready ∧ t.web.state = .ready) ∨
          (∃ f, ¬ (f ∈ s.sch.queue ↔ f ∈ t.sch.queue)) →
        (needed t → still t → t.web.flushTimer ≠ none ∧
          (s.web.flushTimer = none → t.web.flushTimer = some t.set.settings.flushDelay)) ∧
        (¬ needed t → t.web.flushTimer = none))) ∧
  (∀ (s : State) (e : WebEntry) (m : Mag), Undisturbed s → s.web.flushTimer ≠ none → s.web.newest = some e →
    s.web.active = some m →
    let target := e.start + e.frame.lf + e.frame.gap + s.set.settings.markWindow + s.set.settings.pathFixed
    s.web.fIn < target → 0 < (s.web.mag m).remaining →
    ∃ t, exec .flushTimerExpiry s = .next t ∧ LinkSame s t ∧
      OnlyLink (s.setWeb { s.web with flushTimer := none, flush := some target }) t ∧
      (s.web.run = none → flushDrive s ≠ some target → s.loop < s.set.settings.loopMax →
        .flushFeed target s.set.settings.linePeriod ∈ t.ports)) ∧
  (∀ s : State, Undisturbed s → s.web.flushTimer = none →
    ∃ t, exec .flushTimerExpiry s = .next t ∧ LinkSame s t ∧ OnlyLink s t) ∧
  (∀ (s : State) (target : Nat), flushDrive s = some target ↔
    s.web.run = none ∧ s.web.flush = some target ∧ s.web.fIn < target ∧ s.loop < s.set.settings.loopMax ∧
      ∃ m, s.web.active = some m ∧ 0 < (s.web.mag m).remaining) ∧
  (∀ (s : State) (target : Int), cutterDrive s = some target ↔
    s.cut.state = .feeding ∧ (s.web.state = .ready ∨ s.web.state = .changeover) ∧ (s.web.c : Int) < target ∧
      s.web.c + s.set.settings.pathFixed < s.web.fIn ∧ s.cut.nextCut.map NextCut.target = some target) ∧
  (∀ (c : Instr) (s : State), c ≠ .powerOnReset → ∃ t, exec c s = .next t ∧
    (∀ target, flushDrive t = some target → flushDrive s ≠ some target →
      .flushFeed target t.set.settings.linePeriod ∈ t.ports) ∧
    (flushDrive t = none → flushDrive s ≠ none → t.web.run = none → .exposureStop ∈ t.ports) ∧
    (∀ target, cutterDrive t = some target → cutterDrive s ≠ some target → .cutterFeed target ∈ t.ports) ∧
    (cutterDrive t = none → cutterDrive s ≠ none → .cutterStop ∈ t.ports))

/-! ### Threading and paper end -/

/-- The threaded event makes the threading magazine active with path_fixed less paper, the web at F_in = path_fixed and C = 0
and the cutter afresh; the web is READY, in CHANGEOVER where SCH asks for one in the same event, and with another magazine's
ask held in CHANGEOVER or, that ask dropped, READY. Under calibrate on load a strip mark that was NONE is AWAITING (the pass
that follows may create the strip, and a magazine found EMPTY loses the mark), and at a changeover's completion the other
magazine's AWAITING mark is NONE; MAG_LOW is raised where the leader brings the length below the low mark, then
CHANGEOVER_DONE at a changeover's completion. Without a threading it is discarded (R34, R88, R91, R92, R93, R120). A paper
end of the threaded roll makes the web FAULT, the active magazine EMPTY with 0 remaining, and ends a run: its frame is
SPOILED, a PENDING mark becomes NONE, a live print is lost with PAPER_END, its loss accounted and FRAME_LOST raised as the
EMPTY change leaves the counts, and its supply is abandoned; a paper end of a roll being threaded abandons the threading and
makes that magazine EMPTY; each raises MAG_LOW, where not yet reported (at a length already 0 too: log 54), and MAG_EMPTY. A
magazine that so becomes EMPTY has no frame in the queue, a committed head among them giving up its supply, its strip mark is
NONE, and a changeover toward it is asked and held no longer, while the other magazine's frames stay (but for a line that the
run's loss fails); with no roll fed it has no effect (R38, R73, R74, R89, R92, R94, R98, R103, R158, R162; in FAULT a run
that a cutter fault let go on goes on: the model's choice, log 39; that these notices precede those of the run's loss: log
48). -/
def Obligations.ThreadedAndPaperEnd : Prop :=
  let gone := fun (s : State) (m : Mag) => magLowNotice s m (s.web.mag m).lowReported 0 ++
    (if (s.web.mag m).state = .empty then [] else [(.magEmpty, le1 m.code ++ le1 1 ++ le4 (s.web.mag m).remaining)])
  let unusable := fun (s t : State) (m : Mag) => (∀ f ∈ t.sch.queue, f.mag ≠ m) ∧ t.sch.mark m = .none ∧
    (∀ h, committedHead s = some h → h.mag = m → HeadGone h s t) ∧ t.web.ask ≠ some m ∧ t.sch.changeover ≠ .pending m ∧
    (s.web.ask = some m → t.sch.changeover ≠ .asked m)
  (∀ (s : State) (m : Mag), Undisturbed s → s.web.threading = some m →
    s.web.state = .threading ∨ s.web.state = .clearing ∨ s.web.state = .changeover →
    ∃ t, exec .threadedEvent s = .next t ∧ LinkSame s t ∧ t.web.active = some m ∧
      (t.web.mag m).remaining = (s.web.mag m).remaining - s.set.settings.pathFixed ∧
      MagKeeps (s.web.mag m.other) (t.web.mag m.other) ∧ t.web.map = s.web.map ∧ t.web.run = s.web.run ∧
      t.web.fIn = s.set.settings.pathFixed ∧ t.web.c = 0 ∧
      (s.web.ask = none ∨ s.web.ask = some m → t.web.state = .ready ∨
        (t.web.state = .changeover ∧ ∃ m', t.sch.changeover = .asked m' ∧ t.web.ask = some m')) ∧
      (s.web.ask = some m.other → t.web.state = .changeover ∨
        (t.web.state = .ready ∧ t.web.ask = none ∧ (t.web.mag m.other).state = .empty)) ∧
      (s.web.ask = none → s.sch.changeover = .clear → s.ort.slots.all (· == none) = true → t.web.state = .ready) ∧
      (s.cut.state ≠ .fault → t.cut.state = .idle ∧ t.cut.offset = 0 ∧ t.cut.missCount = 0 ∧ t.cut.nextCut = none ∧
        t.cut.gaps = [] ∧ t.cut.carried = none ∧ t.cut.abandoned = s.cut.abandoned) ∧
      (s.set.settings.calibrateOnLoad ≠ 0 → s.sch.mark m = .none → t.sch.mark m = .awaiting ∨
        (∃ n, t.sch.mark m = .created n) ∨ (t.sch.mark m = .none ∧ (t.web.mag m).state = .empty)) ∧
      (s.set.settings.calibrateOnLoad = 0 → s.sch.mark m = .none → t.sch.mark m = .none) ∧
      (s.web.ask = some m → s.sch.mark m.other = .awaiting → t.sch.mark m.other = .none) ∧
      (let left := (s.web.mag m).remaining - s.set.settings.pathFixed
       Raises s t (magLowNotice s m (s.web.mag m).lowReported left ++ (if s.web.ask = some m then
        [(.changeoverDone, le1 m.code ++ le1 (s.web.mag m).state.code ++ le4 left)] else []))) ∧
      t.exu = s.exu ∧ OrtKeeps s.ort t.ort ∧ SrtKeeps s.srt t.srt ∧ t.prc = s.prc ∧ t.set = s.set) ∧
  (∀ s : State, Undisturbed s → s.web.threading = none ∨ s.web.state = .ready ∨ s.web.state = .fault ∨
    s.web.state = .unthreaded →
    ∃ t, exec .threadedEvent s = .next t ∧ LinkSame s t ∧ OnlyLink s t) ∧
  (∀ (s : State) (m : Mag), Undisturbed s → s.web.active = some m → (s.web.run ≠ none → s.web.map ≠ []) →
    s.web.state = .ready ∨ (s.web.state = .changeover ∧ s.web.threading = none) →
    ∃ t, exec .paperEndSensor s = .next t ∧ LinkSame s t ∧ t.web.state = .fault ∧ t.web.run = none ∧
      t.web.flush = none ∧ t.web.flushTimer = none ∧
      (t.web.mag m).state = .empty ∧ (t.web.mag m).remaining = 0 ∧ RaisesFirst s t (gone s m) ∧
      MagKeeps (s.web.mag m.other) (t.web.mag m.other) ∧ t.web.active = some m ∧
      t.web.map.map (fun e => (e.frame.number, e.start)) = s.web.map.map (fun e => (e.frame.number, e.start)) ∧
      (∀ e, s.web.run ≠ none → (s.web.map.map fun x => x.frame.number).Nodup → t.web.newest = some e →
        e.webState ≠ .exposing) ∧
      (∀ e, s.web.run ≠ none → (s.web.map.map fun x => x.frame.number).Nodup → s.web.newest = some e →
        e.webState ≠ .exposed → ∃ e', t.web.newest = some e' ∧ e'.frame.number = e.frame.number ∧
          e'.webState = .spoiled ∧ e'.mark = (if e.mark = .pending then .none else e.mark) ∧
          (e.webState = .exposing → e.frame.isStrip = false → e'.frame.live = false)) ∧
      (∀ e q, s.web.run ≠ none → (s.web.map.map fun x => x.frame.number).Nodup → s.web.newest = some e →
        e.webState = .exposing → e.frame.live = true → e.frame.ref = some q →
        LossTaken ⟨e.frame, q, .paperEnd, .webMap, none⟩ (paperGone m s) t) ∧
      (∀ c e, s.ifu.current = some c → s.web.run ≠ none → s.web.newest = some e → e.frame.number = c.frame →
        CurrentGone c s t) ∧
      t.exu = { s.exu with head := if s.web.run ≠ none ∧ s.exu.head = .exposing then .ready else s.exu.head } ∧
      t.cut.state = s.cut.state.stopFeed ∧ SrtKeeps s.srt t.srt ∧ t.prc = s.prc ∧ t.set = s.set ∧
      ((s.web.mag m).state ≠ .empty → unusable s t m ∧
        (s.web.run = none → (s.sch.queue.filter fun f => f.mag != m).Sublist t.sch.queue))) ∧
  (∀ (s : State) (m : Mag), Undisturbed s → s.web.threading = some m →
    s.web.state = .changeover ∨ s.web.state = .threading ∨ s.web.state = .clearing →
    ∃ t, exec .paperEndSensor s = .next t ∧ LinkSame s t ∧ t.web.state = .fault ∧ t.web.threading = none ∧
      (t.web.mag m).state = .empty ∧ (t.web.mag m).remaining = 0 ∧ RaisesFirst s t (gone s m) ∧
      MagKeeps (s.web.mag m.other) (t.web.mag m.other) ∧ t.web.map = s.web.map ∧ t.web.active = s.web.active ∧
      t.exu = s.exu ∧ SrtKeeps s.srt t.srt ∧ t.prc = s.prc ∧ t.set = s.set ∧
      ((s.web.mag m).state ≠ .empty → unusable s t m ∧
        (s.sch.queue.filter fun f => f.mag != m).Sublist t.sch.queue)) ∧
  (∀ (s : State) (m : Mag), Undisturbed s → s.web.state = .fault → s.web.active = some m →
    ∃ t, exec .paperEndSensor s = .next t ∧ LinkSame s t ∧ t.web.state = .fault ∧
      (t.web.mag m).state = .empty ∧ (t.web.mag m).remaining = 0 ∧ RaisesFirst s t (gone s m) ∧
      MagKeeps (s.web.mag m.other) (t.web.mag m.other) ∧ t.web.map = s.web.map ∧ t.web.active = s.web.active ∧
      t.web.run = s.web.run ∧ t.exu = s.exu ∧ SrtKeeps s.srt t.srt ∧ t.prc = s.prc ∧ t.set = s.set ∧
      ((s.web.mag m).state ≠ .empty → unusable s t m ∧
        (s.sch.queue.filter fun f => f.mag != m).Sublist t.sch.queue)) ∧
  (∀ s : State, Undisturbed s → s.web.state = .unthreaded ∨ (s.web.state = .fault ∧ s.web.active = none) ∨
    (s.web.threading = none ∧ (s.web.state = .threading ∨ s.web.state = .clearing)) →
    ∃ t, exec .paperEndSensor s = .next t ∧ LinkSame s t ∧ OnlyLink s t)

/-! ### The cutter -/

/-- A driven cutter-feed step raises C by 1, never beyond the cutter limit; otherwise the step is discarded with its sample
(R112). A sample that shows the mark, at m − W or beyond, lengthens the mark run, the first of a run giving its coordinate a;
one that does not puts the run back to 0, and one before m − W, or while no gap with a printed mark is searched, leaves it
(R114). At the third sample in a row that shows the mark inside its window, the gap is FOUND: the registration offset becomes
a − m, which its record and the target of the next cut that uses it take, and the miss count is 0 (R111, R114, R115). At the
decision point without one, also where the sample there shows the mark, it is MISSED: the offset is held, the miss count
rises, CUT_MARK_MISSED is raised, and the third miss puts the cutter in FAULT with CUTTER_FAULT, a live print at the blade
being lost with CUT_FAULT, its notices between the two (R116, R119, R158); an entry without a mark is UNMARKED there, offset
and miss count held, without a notice (R117). Only the record being searched is decided: the carried one while it is OPEN,
else the oldest OPEN one of an entry (R114). At a step that decides nothing, a cut whose target is reached falls due: a
leading one, and a trailing one with a place in transit, is commanded, and flags its frame unregistered unless its record is
FOUND; a trailing one without a place is held, until a drop or SORTER_RESUME frees one (R111, R113, R123, R139). The mark
window is read when the search of the oldest OPEN gap begins (R114). A target worked out at or behind C falls due where the
blade stands (R111). -/
def Obligations.CutterFeedSteps : Prop :=
  let found := fun (s : State) (y : NextCut) => match y.kind with
    | .trailing => ∃ g, s.cut.gaps.find? (fun g => g.frame == y.frame) = some g ∧ g.decision = .found
    | .leading => ∃ z, s.cut.carried = some z ∧ z.gap.decision = .found
  let commanded := fun (s t : State) (y : NextCut) (c : Int) =>
    t.cut.state = .cutting ∧ t.cut.nextCut = some y ∧
    (found s y ∧ c = y.target → t.web.map = s.web.map) ∧
    (¬ (found s y ∧ c = y.target) → t.web.map = s.web.map.map fun e =>
      if e.frame.number = y.frame then { e with frame := { e.frame with unregistered := true } } else e)
  let decided := fun (s t : State) (g : GapRecord) (d : GapDecision) (o : Int) =>
    (∀ z, s.cut.carried = some z → z.gap.decision = .undecided →
      t.cut.carried = some { z with gap := { g with decision := d, offset := some o } } ∧
      t.cut.gaps.map GapRecord.unsearched = s.cut.gaps.map GapRecord.unsearched) ∧
    ((∀ z, s.cut.carried = some z → z.gap.decision ≠ .undecided) → t.cut.carried = s.cut.carried ∧
      ∀ i : Nat, s.cut.gaps[i]? = some g → (∀ j, j < i → s.cut.gaps[j]? ≠ some g) →
        t.cut.gaps[i]? = some { g with decision := d, offset := some o } ∧
        ∀ j, j ≠ i → t.cut.gaps[j]?.map GapRecord.unsearched = s.cut.gaps[j]?.map GapRecord.unsearched)
  let decision := fun (g : GapRecord) (w : Nat) => g.gapStart + g.gap / 2 + w + 2
  let sampled := fun s : State => s.web.c + 1 + s.set.settings.markOffset
  let quiet := fun (s : State) (seen : Bool) => openGap s = none ∨ ∃ g w, openGap s = some g ∧ g.window = some w ∧
    (gapMark s g = .pending ∨ (gapMark s g = .none ∧ sampled s < decision g w) ∨
      (gapMark s g = .printed ∧ ((seen = false ∧ sampled s < decision g w) ∨
        (seen = true ∧ s.cut.markRun < 2 ∧ sampled s < decision g w) ∨ ∃ m, g.markCoord = some m ∧ sampled s + w < m)))
  (∀ (s : State) (g : GapRecord), openGap s = some g →
    (g.window = none → openGap (beginSearch s) = some { g with window := some s.set.settings.markWindow }) ∧
    (g.window ≠ none → beginSearch s = s)) ∧
  (∀ (s : State) (seen : Bool), Undisturbed s → cutterDriven s = true → s.web.map ≠ [] →
    ∃ t, exec (.cutterFeedStep seen) s = .next t ∧ LinkSame s t ∧ t.web.c = s.web.c + 1 ∧ t.web.fIn = s.web.fIn ∧
      t.web.c + s.set.settings.pathFixed ≤ t.web.fIn ∧ t.web.run = s.web.run ∧ t.web.active = s.web.active ∧
      t.exu = s.exu ∧ SrtKeeps s.srt t.srt ∧ t.prc = s.prc ∧ t.set = s.set) ∧
  (∀ (s : State) (seen : Bool), Undisturbed s → cutterDriven s = false →
    ∃ t, exec (.cutterFeedStep seen) s = .next t ∧ LinkSame s t ∧ OnlyLink s t) ∧
  (∀ (s : State) (g : GapRecord) (w m : Nat), Undisturbed s → cutterDriven s = true → openGap s = some g →
    gapMark s g = .printed → g.window = some w → g.markCoord = some m →
    let x := sampled s
    (s.cut.markRun = 2 → m ≤ x + w → m ≤ s.cut.markFirst + w → s.cut.markFirst ≤ m + w →
      ∃ t, exec (.cutterFeedStep true) s = .next t ∧ t.cut.offset = (s.cut.markFirst : Int) - m ∧
        t.cut.missCount = 0 ∧ t.cut.markRun = 0 ∧ Raises s t [] ∧
        decided s t g .found ((s.cut.markFirst : Int) - m) ∧
        ∀ y, s.cut.nextCut = some y →
          (y.kind = .trailing ∧ y.frame = g.frame ∧ s.cut.gaps.find? (fun h => h.frame == g.frame) = some g) ∨
            (y.kind = .leading ∧ ∃ z, s.cut.carried = some z ∧ z.gap.decision = .undecided) →
          t.cut.nextCut = some { y with target := y.nominal + ((s.cut.markFirst : Int) - m) }) ∧
    (x + w < m → ∀ seen, ∃ t, exec (.cutterFeedStep seen) s = .next t ∧ t.cut.markRun = s.cut.markRun ∧
      t.cut.markFirst = s.cut.markFirst) ∧
    (m ≤ x + w → x < decision g w → ∃ t, exec (.cutterFeedStep false) s = .next t ∧ t.cut.markRun = 0) ∧
    (m ≤ x + w → x < decision g w → s.cut.markRun < 2 →
      ∃ t, exec (.cutterFeedStep true) s = .next t ∧ t.cut.markRun = s.cut.markRun + 1 ∧
        t.cut.markFirst = if s.cut.markRun = 0 then x else s.cut.markFirst) ∧
    (m ≤ x + w → decision g w ≤ x → ∀ seen, seen = false ∨ s.cut.markRun < 2 →
      ∃ t, exec (.cutterFeedStep seen) s = .next t ∧ t.cut.offset = s.cut.offset ∧
        t.cut.missCount = s.cut.missCount + 1 ∧ t.cut.markRun = 0 ∧
        (2 ≤ s.cut.missCount → t.cut.state = .fault) ∧ decided s t g .missed s.cut.offset ∧
        (let missed := (NoticeKind.cutMarkMissed, le2 g.frame ++ le4 m ++ [BitVec.ofInt 8 s.cut.offset] ++
          le1 (s.cut.missCount + 1))
         let fault := (NoticeKind.cutterFault, le1 1 ++ le4 (s.web.c + 1) ++ le2 ((frameAtBlade s).getD 0xFFFF) ++
          le1 (s.cut.missCount + 1))
         (s.cut.missCount < 2 → Raises s t [missed]) ∧
         (2 ≤ s.cut.missCount → RaisesFirst s t [missed] ∧
          ((∀ n e, frameAtBlade s = some n → findEntry n s = some e → e.frame.live = false ∨ e.frame.ref = none) →
            Raises s t [missed, fault]) ∧
          ∀ e q, frameAtBlade s = some e.frame.number → findEntry e.frame.number s = some e → e.frame.live = true →
            e.frame.ref = some q → LossTaken ⟨e.frame, q, .cutFault, .webMap, none⟩ s t ∧
            RaisesBehind s (accountLoss ⟨e.frame, q, .cutFault, .webMap, none⟩ (sendNotice missed.1 missed.2 s)) t
              fault)))) ∧
  (∀ (s : State) (seen : Bool) (g : GapRecord) (w : Nat), Undisturbed s → cutterDriven s = true →
    openGap s = some g → gapMark s g = .none → g.window = some w → decision g w ≤ sampled s →
    ∃ t, exec (.cutterFeedStep seen) s = .next t ∧ Raises s t [] ∧ t.cut.offset = s.cut.offset ∧
      t.cut.missCount = s.cut.missCount ∧ t.cut.markRun = 0 ∧ decided s t g .unmarked s.cut.offset) ∧
  (∀ (s : State) (seen : Bool) (y : NextCut), Undisturbed s → cutterDriven s = true → s.web.map ≠ [] → quiet s seen →
    s.cut.nextCut = some y →
    ∃ t, exec (.cutterFeedStep seen) s = .next t ∧ LinkSame s t ∧ Raises s t [] ∧ t.cut.gaps = s.cut.gaps ∧
      t.cut.carried = s.cut.carried ∧ t.cut.offset = s.cut.offset ∧ t.cut.missCount = s.cut.missCount ∧
      ((∀ g, openGap s = some g → gapMark s g ≠ .printed) →
        t.cut.markRun = s.cut.markRun ∧ t.cut.markFirst = s.cut.markFirst) ∧
      (s.web.c + 1 < y.target → t.cut.state = .feeding ∧ t.cut.nextCut = some y ∧ t.web.map = s.web.map ∧
        .bladeCut ∉ t.ports) ∧
      (y.target ≤ s.web.c + 1 → y.kind = .leading ∨ s.srt.transit.length < 4 →
        commanded s t y y.target ∧ .bladeCut ∈ t.ports ∧ .cutterStop ∈ t.ports) ∧
      (y.target ≤ s.web.c + 1 → y.kind = .trailing → 4 ≤ s.srt.transit.length →
        t.cut.state = .hold ∧ t.cut.nextCut = some y ∧ t.web.map = s.web.map ∧ .bladeCut ∉ t.ports ∧
        .cutterStop ∈ t.ports)) ∧
  (∀ (s : State) (y : NextCut), s.cut.nextCut = some y →
    (s.cut.state = .feeding → y.target ≤ s.web.c → y.kind = .leading ∨ s.srt.transit.length < 4 →
      commanded s (checkDue s) y s.web.c ∧ .bladeCut ∈ (checkDue s).ports) ∧
    (s.cut.state = .feeding → y.target ≤ s.web.c → y.kind = .trailing → 4 ≤ s.srt.transit.length →
      checkDue s = s.setCut { s.cut with state := .hold }) ∧
    (s.cut.state ≠ .feeding ∨ s.web.c < y.target → checkDue s = s)) ∧
  (∀ (s : State) (y : NextCut) (p : Piece) (rest : List Piece), Undisturbed s → s.cut.state = .hold →
    s.cut.nextCut = some y → s.web.state = .ready ∨ s.web.state = .changeover → s.srt.ended = 0 →
    s.srt.dropping = true → s.srt.transit = p :: rest →
    ∃ t, exec .dropCompletion s = .next t ∧ commanded s t y s.web.c ∧ .bladeCut ∈ t.ports) ∧
  (∀ (tag : Byte) (s : State) (y : NextCut) (p : Piece) (rest : List Piece), Takes s → s.cut.state = .hold →
    s.cut.nextCut = some y → s.web.state = .ready ∨ s.web.state = .changeover → s.srt.state = .fault →
    s.srt.jammed = true → s.srt.transit = p :: rest →
    ∃ t, exec (.sorterResume tag []) s = .next t ∧ commanded s t y s.web.c ∧ .bladeCut ∈ t.ports)

/-- A leading cut that completes makes the leading edge and discards the carried record; a trailing cut that completes moves
the oldest frame from the web map to the end of the transit queue, a live EXPOSED strip to be read by the densitometer, which
no other piece is, carries its gap record and clears leading edge made (R108, R113, R123, R124). The next cut is then chosen
(R110, R111): after the leading cut the frame's trailing one; after a trailing one the leading cut of the frame that is now
the oldest, unless the carried gap starts at that frame's start: then the leading cut is omitted, the frame flagged
unregistered, the carried record discarded and its trailing cut is next; with no frame left there is none. Each target is the
nominal coordinate plus the offset of the record the cut uses, the registration offset while there is none or it is OPEN; a
target at or behind C falls due at once (R113). The last entry's trailing cut in CHANGEOVER threads the target of the ask; one
too short for that is EMPTY with MAG_EMPTY, and its ask is dropped (R90, R92, R93). An abandoned cut's completion is counted
down, one without a cut discarded. -/
def Obligations.CutCompletes : Prop :=
  let own := fun (s : State) (n : Nat) => s.cut.gaps.find? fun g => g.frame == n
  let offset := fun (s : State) (g : Option GapRecord) => (g.bind GapRecord.offset).getD s.cut.offset
  let chosen := fun (s t : State) (x : NextCut) (pieces : Nat) =>
    let feeds := s.web.state = .ready ∨ s.web.state = .changeover
    t.cut.nextCut = some x ∧ (¬ feeds → t.cut.state = .idle) ∧
    (feeds → (s.web.c : Int) < x.target → t.cut.state = .feeding) ∧
    (feeds → x.target ≤ s.web.c → x.kind = .leading ∨ pieces < 4 → t.cut.state = .cutting ∧ .bladeCut ∈ t.ports) ∧
    (feeds → x.target ≤ s.web.c → x.kind = .trailing → 4 ≤ pieces → t.cut.state = .hold ∧ .bladeCut ∉ t.ports)
  (∀ (s : State) (x : NextCut) (e : WebEntry) (rest : List WebEntry), Undisturbed s → s.cut.abandoned = 0 →
    s.cut.state = .cutting → s.cut.nextCut = some x → s.web.map = e :: rest →
    (x.kind = .leading → ∃ t, exec .cutCompletion s = .next t ∧
      t.cut.gaps.map GapRecord.unsearched = s.cut.gaps.map GapRecord.unsearched ∧
      chosen s t ⟨.trailing, e.frame.number, e.start + e.frame.lf,
        (e.start + e.frame.lf : Nat) + offset s (own s e.frame.number)⟩ s.srt.transit.length) ∧
    (x.kind = .trailing → ∃ t, exec .cutCompletion s = .next t ∧
      t.cut.gaps.map GapRecord.unsearched =
        (s.cut.gaps.filter fun g => g.frame != e.frame.number).map GapRecord.unsearched ∧
      (rest = [] → t.cut.leadingMade = false ∧ t.cut.carried = (own s e.frame.number).map fun g => ⟨g, e.mark⟩) ∧
      ∀ (e' : WebEntry) (later : List WebEntry), rest = e' :: later → e'.frame.number ≠ e.frame.number →
        ((∃ g, own s e.frame.number = some g ∧ g.gapStart = e'.start) →
          t.cut.leadingMade = true ∧ t.cut.carried = none ∧
          (∃ e'' later', t.web.map = e'' :: later' ∧ e''.frame.unregistered = true) ∧
          chosen s t ⟨.trailing, e'.frame.number, e'.start + e'.frame.lf,
            (e'.start + e'.frame.lf : Nat) + offset s (own s e'.frame.number)⟩ (s.srt.transit.length + 1)) ∧
        ((∀ g, own s e.frame.number = some g → g.gapStart ≠ e'.start) →
          t.cut.leadingMade = false ∧ t.cut.carried = (own s e.frame.number).map (fun g => ⟨g, e.mark⟩) ∧
          t.cut.gaps = s.cut.gaps.filter (fun g => g.frame != e.frame.number) ∧
          (let target : Int := e'.start + offset s (own s e.frame.number)
           chosen s t ⟨.leading, e'.frame.number, e'.start, target⟩ (s.srt.transit.length + 1) ∧
            (s.web.c < target → t.web.map = rest))))) ∧
  (∀ (s : State) (x : NextCut) (e : WebEntry) (rest : List WebEntry), Undisturbed s → s.cut.abandoned = 0 →
    s.cut.state = .cutting → s.cut.nextCut = some x → s.web.map = e :: rest →
    (x.kind = .leading → ∃ t, exec .cutCompletion s = .next t ∧ LinkSame s t ∧ t.cut.leadingMade = true ∧
      t.cut.carried = none ∧ (∃ target, t.cut.nextCut = some ⟨.trailing, e.frame.number, e.start + e.frame.lf, target⟩) ∧
      t.web.map.map WebEntry.unflagged = s.web.map.map WebEntry.unflagged ∧ SrtKeeps s.srt t.srt ∧
      .readDensitometer ∉ t.ports ∧
      t.exu = s.exu ∧ t.prc = s.prc ∧ t.set = s.set) ∧
    (x.kind = .trailing → ∃ t, exec .cutCompletion s = .next t ∧ LinkSame s t ∧
      t.web.map.map WebEntry.unflagged = rest.map WebEntry.unflagged ∧
      SrtKeeps { s.srt with transit := s.srt.transit ++ [⟨e.frame, e.webState,
        if e.frame.isStrip = true ∧ e.frame.deadMark = false ∧ e.webState = .exposed then .awaited else .none,
        none⟩] } t.srt ∧
      (.readDensitometer ∈ t.ports ↔ e.frame.isStrip = true ∧ e.frame.deadMark = false ∧ e.webState = .exposed) ∧
      (rest = [] → t.cut.nextCut = none ∧ t.cut.state = .idle) ∧
      (∀ m, rest = [] → s.web.state = .changeover → s.web.ask = some m → s.web.threading = none →
        (s.set.settings.pathFixed ≤ (s.web.mag m).remaining → t.web.threading = some m ∧ .threadFeeder m ∈ t.ports ∧
          t.web.fIn = s.set.settings.pathFixed ∧ t.web.c = 0 ∧ t.web.state = .changeover ∧ t.web.ask = some m) ∧
        ((s.web.mag m).remaining < s.set.settings.pathFixed → s.web.active ≠ some m → (s.web.mag m).state ≠ .empty →
          (t.web.mag m).state = .empty ∧ t.web.ask ≠ some m ∧ t.web.threading ≠ some m ∧
          (∀ f ∈ t.sch.queue, f.mag ≠ m) ∧
          RaisesAmong s t (.magEmpty, le1 m.code ++ le1 2 ++ le4 (s.web.mag m).remaining))) ∧
      t.exu = s.exu ∧ OrtKeeps s.ort t.ort ∧ t.prc = s.prc ∧ t.set = s.set)) ∧
  (∀ s : State, Undisturbed s → 0 < s.cut.abandoned → ∃ t, exec .cutCompletion s = .next t ∧ LinkSame s t ∧
    OnlyLink (s.setCut { s.cut with abandoned := s.cut.abandoned - 1 }) t) ∧
  (∀ s : State, Undisturbed s → s.cut.abandoned = 0 → s.cut.state ≠ .cutting →
    ∃ t, exec .cutCompletion s = .next t ∧ LinkSame s t ∧ OnlyLink s t)

/-- A blade jam in any state but FAULT puts the cutter in FAULT and the web from READY, CHANGEOVER or THREADING, where a
flush stops and its timer is disarmed; in CLEARING, UNTHREADED and FAULT the web state stays (in CLEARING with an active
magazine; an ask dropped without one: log 32); the frame at the blade, that of the cut being made or else the oldest one
whose leading edge is made, is dead, a live print being lost with CUT_FAULT, its loss accounted and FRAME_LOST raised;
records, offset and miss count are kept, and a run goes on; CUTTER_FAULT is raised, behind the notices of a loss, and alone
without one; every entry of the web map but that of the frame at the blade stays as it was. In FAULT it is discarded (R95,
R104, R105, R119, R158, R162; the code of an absent frame: R183). -/
def Obligations.BladeJamFaults : Prop :=
  (∀ s : State, Undisturbed s → s.cut.state ≠ .fault →
    ∃ t, exec .bladeJam s = .next t ∧ LinkSame s t ∧ t.cut = { s.cut with state := .fault } ∧
      (s.web.state = .ready ∨ s.web.state = .changeover ∨ s.web.state = .threading →
        t.web.state = .fault ∧ t.web.flush = none ∧ t.web.flushTimer = none) ∧
      (s.web.state = .unthreaded ∨ s.web.state = .fault ∨ (s.web.state = .clearing ∧ s.web.active ≠ none) →
        t.web.state = s.web.state) ∧
      (let fault := (NoticeKind.cutterFault, le1 0 ++ le4 s.web.c ++ le2 ((frameAtBlade s).getD 0xFFFF) ++
        le1 s.cut.missCount)
       ((∀ n e, frameAtBlade s = some n → findEntry n s = some e → e.frame.live = false ∨ e.frame.ref = none) →
        Raises s t [fault]) ∧
        ∀ e q, frameAtBlade s = some e.frame.number → findEntry e.frame.number s = some e → e.frame.live = true →
          e.frame.ref = some q →
          RaisesBehind s (accountLoss ⟨e.frame, q, .cutFault, .webMap, none⟩ s) t fault) ∧
      ((s.web.map.map fun e => e.frame.number).Nodup → t.web.map = s.web.map.map fun e =>
        if frameAtBlade s = some e.frame.number then { e with frame := { e.frame with
          live := e.frame.live && e.frame.isStrip
          deadMark := e.frame.deadMark || e.frame.isStrip } } else e) ∧
      (t.web.map.length = s.web.map.length ∧ ∀ (i : Nat) (e : WebEntry), s.web.map[i]? = some e →
        frameAtBlade s ≠ some e.frame.number → t.web.map[i]? = some e) ∧
      (∀ n, frameAtBlade s = some n → (s.web.map.map fun e => e.frame.number).Nodup →
        ∀ e ∈ t.web.map, e.frame.number = n → e.frame.dead = true) ∧
      (∀ e q, frameAtBlade s = some e.frame.number → findEntry e.frame.number s = some e → e.frame.live = true →
        e.frame.ref = some q → LossTaken ⟨e.frame, q, .cutFault, .webMap, none⟩ s t) ∧
      t.web.run = s.web.run ∧ t.web.active = s.web.active ∧ t.exu = s.exu ∧ SrtKeeps s.srt t.srt ∧
      t.prc = s.prc ∧ t.set = s.set) ∧
  (∀ s : State, Undisturbed s → s.cut.state = .fault →
    ∃ t, exec .bladeJam s = .next t ∧ LinkSame s t ∧ OnlyLink s t) ∧
  (∀ (s : State) (n : Nat), frameAtBlade s = some n ↔
    (s.cut.state = .cutting ∧ ∃ x, s.cut.nextCut = some x ∧ x.frame = n) ∨
    (s.cut.state ≠ .cutting ∧ s.cut.leadingMade = true ∧ ∃ e rest, s.web.map = e :: rest ∧ e.frame.number = n))

/-! ### The sorter -/

/-- A densitometer reading is taken by the oldest piece that awaits one: with an index in all three channels the magazine's
offsets move by the step values, clamped to −512..+511, and it is READY. CAL_RESULT is raised: APPLIED, UNREADABLE with an
index that is none, or NOT_APPLIED for a magazine ABSENT or EMPTY; the other magazine keeps its record (R47, R60, R61, R62,
R124; that it is the magazine's record as it stands, also of a roll loaded since: the model's choice, log 50). While readings
are to be discarded, or with no piece waiting, it is discarded. -/
def Obligations.ReadingJudged : Prop :=
  (∀ (s : State) (pre post : List Piece) (p : Piece) (r g b : BitVec 10), Undisturbed s → s.srt.discards = 0 →
    s.srt.transit = pre ++ p :: post → (∀ q ∈ pre, q.reading ≠ .awaited) → p.reading = .awaited →
    let rec0 := s.web.mag p.frame.mag
    let th := s.exu.ladder.thresholds
    let moved := fun (k : Int) (i : Nat) => max (-512) (min 511 (k + s.exu.ladder.steps.getD i 0))
    ∃ t, exec (.densitometerReading r g b) s = .next t ∧ LinkSame s t ∧
      SrtKeeps { s.srt with transit := pre ++ { p with reading := .taken } :: post } t.srt ∧
      (let given := [r.toNat, g.toNat, b.toNat]
       let found := given.map (ladderIndex th)
       (rec0.state = .calNeeded ∨ rec0.state = .ready → none ∈ found →
        Raises s t [calNotice p 1 given found rec0.offsets 0]) ∧
       (rec0.state = .absent ∨ rec0.state = .empty → Raises s t [calNotice p 2 given found rec0.offsets 0])) ∧
      (∀ i j k, rec0.state = .calNeeded ∨ rec0.state = .ready → ladderIndex th r.toNat = some i →
        ladderIndex th g.toNat = some j → ladderIndex th b.toNat = some k →
        (let clamps := fun (q : Int) (i n : Nat) => if moved q i = q + s.exu.ladder.steps.getD i 0 then 0 else n
         Raises s t [calNotice p 0 [r.toNat, g.toNat, b.toNat] [some i, some j, some k]
          ⟨moved rec0.offsets.r i, moved rec0.offsets.g j, moved rec0.offsets.b k⟩
          (clamps rec0.offsets.r i 1 + clamps rec0.offsets.g j 2 + clamps rec0.offsets.b k 4)]) ∧
        MagKeeps { rec0 with
          state := .ready
          offsets := ⟨moved rec0.offsets.r i, moved rec0.offsets.g j, moved rec0.offsets.b k⟩
          indices := ⟨some i, some j, some k⟩ } (t.web.mag p.frame.mag)) ∧
      ((rec0.state = .absent ∨ rec0.state = .empty) ∨ ladderIndex th r.toNat = none ∨ ladderIndex th g.toNat = none ∨
        ladderIndex th b.toNat = none → MagKeeps rec0 (t.web.mag p.frame.mag)) ∧
      MagKeeps (s.web.mag p.frame.mag.other) (t.web.mag p.frame.mag.other) ∧
      (s.sch.mark p.frame.mag = .created p.frame.number → t.sch.mark p.frame.mag = .none) ∧
      t.web.map = s.web.map ∧ OrtKeeps s.ort t.ort ∧ t.exu = s.exu ∧ t.prc = s.prc ∧ t.set = s.set) ∧
  (∀ (s : State) (r g b : BitVec 10), Undisturbed s → 0 < s.srt.discards →
    ∃ t, exec (.densitometerReading r g b) s = .next t ∧ LinkSame s t ∧
      OnlyLink (s.setSrt { s.srt with discards := s.srt.discards - 1 }) t) ∧
  (∀ (s : State) (r g b : BitVec 10), Undisturbed s → s.srt.discards = 0 →
    (∀ p ∈ s.srt.transit, p.reading ≠ .awaited) →
    ∃ t, exec (.densitometerReading r g b) s = .next t ∧ LinkSame s t ∧ OnlyLink s t) ∧
  (∀ (th : List Nat) (x i : Nat), ladderIndex th x = some i ↔
    (∃ y, th[i]? = some y ∧ y ≤ x) ∧ ∀ j y, i < j → th[j]? = some y → x < y)

/-- A drop that is due routes the head piece: a dead print or a strip to the reject bin, a live print to its order's newest
bin below capacity, else to a further FREE bin of its range when it has fewer than four, else to the overflow bin with
OVERFLOW_USED and the transport is commanded to that bin; with no drop due nothing happens (R133, R134). -/
def Obligations.DropStartRoutes : Prop :=
  (∀ (s : State) (p : Piece) (rest : List Piece), Undisturbed s → s.srt.state = .run → s.srt.dropping = false →
    s.srt.transit = p :: rest →
    let drops := fun (t : State) (b : Nat) => ∀ x, .drop x ∈ t.ports ↔ x = b
    let startTo := fun b : Nat => { s.srt with transit := { p with routed := some b } :: rest, dropping := true }
    (p.frame.ref = none ∨ p.frame.live = false → ∃ t, exec .dropStart s = .next t ∧ LinkSame s t ∧
      Raises s t [] ∧ drops t 25 ∧ OnlyLink (s.setSrt (startTo 25)) t) ∧
    ∀ r o, p.frame.ref = some r → p.frame.live = true → s.orderAt r.slot r.number = some o →
      (∀ b x, o.bins.getLast? = some b → s.srt.bins[b]? = some x → x.count < s.set.settings.binCapacity →
        ∃ t, exec .dropStart s = .next t ∧ LinkSame s t ∧ Raises s t [] ∧ drops t b ∧
          OnlyLink (s.setSrt (startTo b)) t) ∧
      ((∀ b, o.bins.getLast? = some b → ∃ x, s.srt.bins[b]? = some x ∧ s.set.settings.binCapacity ≤ x.count) →
        (∀ b x, o.bins.length < 4 → freeBinFor s o = some b → s.srt.bins[b]? = some x →
          ∃ t, exec .dropStart s = .next t ∧ LinkSame s t ∧ Raises s t [] ∧ drops t b ∧ OnlyLink ((s.setOrder r.slot (some { o with
            bins := o.bins ++ [b] })).setSrt { startTo b with
              bins := s.srt.bins.set b ⟨.assigned, some r.number, 0, x.sensor⟩ }) t) ∧
        (4 ≤ o.bins.length ∨ freeBinFor s o = none →
          ∃ t, exec .dropStart s = .next t ∧ LinkSame s t ∧
            Raises s t [(.overflowUsed, le4 r.number ++ le1 r.line ++ le2 p.frame.number ++
              le1 s.srt.overflow.count)] ∧ drops t 24 ∧
            OnlyLink ((s.setOrder r.slot (some { o with overflowUsed := true })).setSrt (startTo 24)) t))) ∧
  (∀ s : State, Undisturbed s → s.srt.state ≠ .run ∨ s.srt.dropping = true ∨ s.srt.transit = [] →
    ∃ t, exec .dropStart s = .next t ∧ LinkSame s t ∧ (∀ x, .drop x ∉ t.ports) ∧ OnlyLink s t)

/-- A drop that completes removes the head piece, counts it in its bin, a bin that has become FREE too, which stays FREE,
makes an ASSIGNED bin at its capacity FULL, and credits a live print to its line, d + 1 and f − 1; a dead print and a strip
change no order; a holding bin that becomes FULL raises REJECT_FULL and sends a sorter in RUN to HOLD; a piece whose reading
is AWAITED adds 1 to the readings to discard; and a strip that leaves unread is reported UNREADABLE, its magazine's strip
mark, where it carries the strip's number, being NONE; the place that becomes free lets a cutter in HOLD command its cut (R4,
R34, R62, R113, R123, R124, R127, R135, R137). The completion of a drop that was ended is counted down; one without a drop is
discarded (R133). -/
def Obligations.DropCompletes : Prop :=
  (∀ (s : State) (p : Piece) (rest : List Piece) (b : Nat), Undisturbed s → s.srt.ended = 0 →
    s.srt.dropping = true → s.srt.transit = p :: rest → p.routed = some b →
    ∃ t, exec .dropCompletion s = .next t ∧ LinkSame s t ∧ t.srt.transit = rest ∧ t.srt.dropping = false ∧
      (∀ x, b < 24 → s.srt.bins[b]? = some x → t.srt.bins[b]? = some { x with
        count := x.count + 1
        state := if x.state = .assigned ∧ s.set.settings.binCapacity ≤ x.count + 1 then .full else x.state }) ∧
      (∀ c x, c ≠ b ∨ 24 ≤ b → s.srt.bins[c]? = some x → t.srt.bins[c]? = some x) ∧
      t.srt.bins.length = s.srt.bins.length ∧
      (let filled := (b = 24 ∧ s.srt.overflow.full = false ∧
          s.set.settings.overflowCapacity ≤ s.srt.overflow.count + 1) ∨
        (24 < b ∧ s.srt.reject.full = false ∧ s.set.settings.rejectCapacity ≤ s.srt.reject.count + 1)
       t.srt.state = if s.srt.state = .run ∧ filled then .hold else s.srt.state) ∧
      t.srt.discards = s.srt.discards + (if p.reading = .awaited then 1 else 0) ∧
      t.srt.jammed = s.srt.jammed ∧ t.srt.windows = s.srt.windows ∧ t.srt.ended = 0 ∧
      t.sch.queue = s.sch.queue ∧ (p.frame.live = false ∨ p.frame.ref = none → t.ort = s.ort) ∧
      t.srt.overflow = (if b = 24 then ⟨s.srt.overflow.full || decide (s.set.settings.overflowCapacity ≤
        s.srt.overflow.count + 1), s.srt.overflow.count + 1, s.srt.overflow.sensor⟩ else s.srt.overflow) ∧
      t.srt.reject = (if 24 < b then ⟨s.srt.reject.full || decide (s.set.settings.rejectCapacity ≤
        s.srt.reject.count + 1), s.srt.reject.count + 1, s.srt.reject.sensor⟩ else s.srt.reject) ∧
      (∀ r l o, p.frame.ref = some r → p.frame.live = true → s.orderAt r.slot r.number = some o →
        o.line r.line = some l → deliveredOf t r.slot r.number r.line = some (l.d + 1) ∧
          ((dropCompletion s).orderAt r.slot r.number).bind (fun o => o.line r.line) =
            some { l with d := l.d + 1, f := l.f - 1 }) ∧
      Raises s t ((if b = 24 ∧ s.srt.overflow.full = false ∧
            s.set.settings.overflowCapacity ≤ s.srt.overflow.count + 1 then
          [(.rejectFull, le1 24 ++ le1 (s.srt.overflow.count + 1))]
        else if 24 < b ∧ s.srt.reject.full = false ∧ s.set.settings.rejectCapacity ≤ s.srt.reject.count + 1 then
          [(.rejectFull, le1 b ++ le1 (s.srt.reject.count + 1))] else []) ++ unreadNotice s p) ∧
      (let unread := fun m => p.frame.mag = m ∧ p.frame.isStrip = true ∧ p.reading ≠ .taken ∧
        s.sch.mark m = .created p.frame.number
       ∀ m, (unread m → t.sch.mark m = .none) ∧ (¬ unread m → MarkKeeps (s.sch.mark m) (t.sch.mark m))) ∧
      (let freed := s.cut.state = .hold ∧ s.cut.nextCut ≠ none ∧ (s.web.state = .ready ∨ s.web.state = .changeover)
       (freed → t.cut = { s.cut with state := .cutting } ∧ .bladeCut ∈ t.ports) ∧
       (¬ freed → CutKeeps s.cut t.cut ∧ .bladeCut ∉ t.ports)) ∧
      t.srt.unregDone = s.srt.unregDone +
        (if p.frame.ref ≠ none ∧ p.frame.live = true ∧ p.frame.unregistered = true then 1 else 0) ∧
      t.web.run = s.web.run ∧ t.exu = s.exu ∧ t.prc = s.prc ∧ t.set = s.set) ∧
  (∀ s : State, Undisturbed s → 0 < s.srt.ended → ∃ t, exec .dropCompletion s = .next t ∧ LinkSame s t ∧
    OnlyLink (s.setSrt { s.srt with ended := s.srt.ended - 1 }) t) ∧
  (∀ s : State, Undisturbed s → s.srt.ended = 0 → s.srt.dropping = false →
    ∃ t, exec .dropCompletion s = .next t ∧ LinkSame s t ∧ OnlyLink s t)

/-- A bin's sensor changes its filtered reading at the third equal sample in a row and not before, and a bin takes the change
by its state: a FREE bin found OCCUPIED is UNCLAIMED, an EMPTYING or UNCLAIMED bin found EMPTY is FREE, an owned bin with
prints found EMPTY is ASSIGNED with count 0, its order marked, and BIN_REMOVED_EARLY raised, the other bins kept but for a
FREE one that a frame created takes, a holding bin found EMPTY has count 0 and is OPEN. Any other change is recorded and
changes nothing else: a FREE bin found EMPTY, another one found OCCUPIED, an owned bin without prints found EMPTY, and a
holding bin found OCCUPIED or read for the first time (R127, R128; that the command carries a bin's samples is the model's
choice, log 19). -/
def Obligations.BinSensorRecorded : Prop :=
  (∀ (s : State) (b : Fin 26) (samples : List Occupancy), Undisturbed s →
    ∃ t, exec (.binSensorEvent b samples) s = .next t ∧ LinkSame s t ∧
      (∀ c x, s.srt.bins[c]? = some x → (t.srt.bins[c]?.map OrderBin.sensor) =
        some (if c = b.val ∧ c < 24 then x.sensor.after samples else x.sensor)) ∧
      t.srt.overflow.sensor =
        (if b.val = 24 then s.srt.overflow.sensor.after samples else s.srt.overflow.sensor) ∧
      t.srt.reject.sensor = (if b.val = 25 then s.srt.reject.sensor.after samples else s.srt.reject.sensor) ∧
      t.srt.transit = s.srt.transit ∧ t.web.map = s.web.map ∧ t.exu = s.exu ∧ t.prc = s.prc ∧ t.set = s.set) ∧
  (∀ (s : State) (b : Fin 26) (x : OrderBin) (v : Occupancy), Undisturbed s → b.val < 24 →
    s.srt.bins[b.val]? = some x → (x.sensor.sample v).2 = true →
    let y := { x with sensor := (x.sensor.sample v).1 }
    (x.state = .free → v = .occupied → ∃ t, exec (.binSensorEvent b [v]) s = .next t ∧ LinkSame s t ∧
      OnlyLink (s.setSrt { s.srt with bins := s.srt.bins.set b.val { y with state := .unclaimed } }) t) ∧
    (x.state = .assigned ∨ x.state = .full → v = .empty → 0 < x.count →
      ∃ t, exec (.binSensorEvent b [v]) s = .next t ∧ LinkSame s t ∧
        t.srt.bins[b.val]? = some { y with state := .assigned, count := 0 } ∧
        SrtKeeps { s.srt with bins := s.srt.bins.set b.val { y with state := .assigned, count := 0 } } t.srt ∧
        ((∀ n, x.owner = some n → findOrder s.ort.slots n = none) → OrtKeeps s.ort t.ort) ∧
        Raises s t [(.binRemovedEarly, le1 b.val ++ le4 (x.owner.getD 0xFFFFFFFF) ++ le1 x.count)] ∧
        (∀ n slot o, x.owner = some n → findOrder s.ort.slots n = some (slot, o) →
          OrtKeeps (s.setOrder slot (some { o with binEmptiedEarly := true })).ort t.ort)) ∧
    (x.state = .free ∧ v = .empty ∨ (x.state ≠ .free ∧ v = .occupied) ∨
        ((x.state = .assigned ∨ x.state = .full) ∧ v = .empty ∧ x.count = 0) →
      ∃ t, exec (.binSensorEvent b [v]) s = .next t ∧ LinkSame s t ∧
        OnlyLink (s.setSrt { s.srt with bins := s.srt.bins.set b.val y }) t) ∧
    (x.state = .emptying ∨ x.state = .unclaimed → v = .empty →
      (binSample b.val v s).srt.bins[b.val]? = some { y with state := .free, count := 0 } ∧
      ∃ t, exec (.binSensorEvent b [v]) s = .next t ∧ LinkSame s t ∧
        SrtKeeps { s.srt with bins := s.srt.bins.set b.val { y with state := .free, count := 0 } } t.srt ∧
        (∃ z, t.srt.bins[b.val]? = some z ∧ z.count = 0 ∧ (z.state = .free ∨ z.state = .assigned)) ∧
        OrtKeeps s.ort t.ort)) ∧
  (∀ (s : State) (b : Fin 26), Undisturbed s → 24 ≤ b.val → ((s.srt.holding b.val).sensor.sample .empty).2 = true →
    (s.srt.holding b.val).sensor.filtered ≠ none →
    ∃ t, exec (.binSensorEvent b [.empty]) s = .next t ∧ LinkSame s t ∧
      (t.srt.holding b.val).count = 0 ∧ (t.srt.holding b.val).full = false ∧
      t.srt.holding (49 - b.val) = s.srt.holding (49 - b.val) ∧ t.srt.bins = s.srt.bins ∧
      (s.srt.state = .hold → (s.srt.holding b.val).full = true → (s.srt.holding (49 - b.val)).full = false →
        t.srt.state = .run)) ∧
  (∀ (s : State) (b : Fin 26) (x : OrderBin) (v : Occupancy), Undisturbed s → b.val < 24 →
    s.srt.bins[b.val]? = some x → (x.sensor.sample v).2 = false →
    ∃ t, exec (.binSensorEvent b [v]) s = .next t ∧ LinkSame s t ∧
      OnlyLink (s.setSrt { s.srt with bins := s.srt.bins.set b.val { x with sensor := (x.sensor.sample v).1 } }) t) ∧
  (∀ (s : State) (b : Fin 26) (v : Occupancy), Undisturbed s → 24 ≤ b.val →
    let x := s.srt.holding b.val
    (x.sensor.sample v).2 = false ∨ x.sensor.filtered = none ∨ v = .occupied →
    ∃ t, exec (.binSensorEvent b [v]) s = .next t ∧ LinkSame s t ∧
      OnlyLink (s.setSrt (if b.val = 24 then { s.srt with overflow := { x with sensor := (x.sensor.sample v).1 } }
        else { s.srt with reject := { x with sensor := (x.sensor.sample v).1 } })) t) ∧
  (∀ (x : Sensor) (v : Occupancy), (x.sample v).1.last = some v ∧
    (x.sample v).1.count = (if x.last = some v then min (x.count + 1) 3 else 1) ∧
    ((x.sample v).2 = true ↔ x.last = some v ∧ 2 ≤ x.count ∧ x.filtered ≠ some v) ∧
    ((x.sample v).2 = true → (x.sample v).1.filtered = some v ∧ x.filtered ≠ some v) ∧
    ((x.sample v).2 = false → (x.sample v).1.filtered = x.filtered) ∧
    (((x.sample v).1.sample v).1.sample v).1.filtered = some v)

/-- The idle timer's expiry puts the part in STANDBY with the head OFF and no flush; a timer that does not run has no
expiry (R54, R188; that a flush under way ends is the model's choice, log 17). After every command the timer runs exactly
when the part is ACTIVE and idle: no order ACCEPTED, ACTIVE or FAILING, exposure queue, web map and transit queue empty, the
feeder not commanded, the setting not 0. It starts with the setting in force; a request its owner carries out restarts it
from the full setting, any other event, and a request answered BAD_FORMAT, lets it run on (R188). -/
def Obligations.IdleTimerStandby : Prop :=
  let idle := fun s : State => (∀ o, some o ∈ s.ort.slots → o.state = .complete ∨ o.state = .failed) ∧
    s.sch.queue = [] ∧ s.web.map = [] ∧ s.srt.transit = [] ∧ s.web.threading = none ∧ s.set.settings.idleTimer ≠ 0
  (∀ (c : Instr) (s : State), ∃ t, exec c s = .next t ∧
    (t.lnk.idleTimer ≠ none ↔ t.lnk.power = .active ∧ idle t)) ∧
  (∀ (c : Instr) (kind tag : Byte) (body : List Byte) (s : State),
    requestOf c = some (kind, tag, body) → c.wf = true → Takes s → lengthFits kind.toNat body = true →
    ∃ t, exec c s = .next t ∧ (idle t → t.lnk.idleTimer = some t.set.settings.idleTimer)) ∧
  (∀ (c : Instr) (s : State), s.lnk.waiting = [] → sendingResetReply s = false →
    (∀ bytes, c ≠ .stationFrameReceived bytes ∧ c ≠ .imageFrameReceived bytes) →
    (∀ kind tag body, requestOf c = some (kind, tag, body) → lengthFits kind.toNat body = false) →
    ∃ t, exec c s = .next t ∧ (t.lnk.power = .active → idle t →
      t.lnk.idleTimer = some (s.lnk.idleTimer.getD t.set.settings.idleTimer))) ∧
  (∀ s : State, Undisturbed s → s.lnk.idleTimer ≠ none →
    ∃ t, exec .idleTimerExpiry s = .next t ∧ t.lnk.power = .standby ∧ t.lnk.idleTimer = none ∧
      t.lnk.waiting = s.lnk.waiting ∧ t.lnk.resetPending = s.lnk.resetPending ∧
      OnlyLink { s with
        exu := { s.exu with head := .off }
        web := { s.web with flush := none, flushTimer := none } } t) ∧
  (∀ s : State, Undisturbed s → s.lnk.idleTimer = none →
    ∃ t, exec .idleTimerExpiry s = .next t ∧ LinkSame s t ∧ OnlyLink s t)

/-! ### Computations the rules give -/

/-- The inputs of a frame's exposure: base codes of the profile and calibration offsets of its magazine, the offset of its
size, density and corrections of its line, cyan for R, magenta for G and yellow for B, all three 0 for a strip, the two steps
and the line period (R49). The exposure sum of each channel, its clamp to 0..4095, the dwell of a code, the limit of 2P and
the limited flag (R50, R51); also the speed class (R52). -/
def Obligations.ExposureComputed : Prop :=
  (∀ i : ExposureInput,
    let x := computeExposure i
    let sum := fun (base : Nat) (k c : Int) => (base : Int) + k + i.size + i.density * i.dStep + c * i.cStep
    let sums := [sum i.base.r i.calib.r i.colour.r, sum i.base.g i.calib.g i.colour.g, sum i.base.b i.calib.b i.colour.b]
    let raw := x.exposure.codes.toList.map fun e => ((256 + e % 256) * 2 ^ (e / 256)) / 16
    x.exposure.codes.toList.map (fun e : Nat => (e : Int)) = sums.map (fun e => max 0 (min 4095 e)) ∧
    x.codeLimited.toList = sums.map (fun e => decide (e < 0 ∨ 4095 < e)) ∧
    x.exposure.dwells.toList = raw.map (fun d => min d (2 * i.period)) ∧
    x.dwellLimited.toList = raw.map (fun d => decide (2 * i.period < d)) ∧
    (x.exposure.limited = true ↔ true ∈ x.codeLimited.toList ++ x.dwellLimited.toList) ∧
    (x.exposure.speed = .normal ↔ ∀ d ∈ raw, d ≤ i.period) ∧
    x.period = (if x.exposure.speed = .normal then i.period else 2 * i.period)) ∧
  (∀ (s : State) (f : Frame),
    let i := exposureInput s f
    let m := s.web.mag f.mag
    (∀ p, s.exu.profiles[m.profile]? = some p → i.base.r = p.r ∧ i.base.g = p.g ∧ i.base.b = p.b) ∧
    (i.calib.r = m.offsets.r ∧ i.calib.g = m.offsets.g ∧ i.calib.b = m.offsets.b) ∧
    (∀ r e, f.job = .print r → s.exu.sizes[r.size]? = some e → i.size = e.offset) ∧
    (∀ r o l, f.job = .print r → s.orderAt r.slot r.number = some o → o.line r.line = some l →
      i.density = l.density ∧ i.colour.r = l.cyan ∧ i.colour.g = l.magenta ∧ i.colour.b = l.yellow) ∧
    (f.job = .strip → i.size = 0 ∧ i.density = 0 ∧ i.colour.r = 0 ∧ i.colour.g = 0 ∧ i.colour.b = 0) ∧
    i.dStep = s.set.settings.densityStep ∧ i.cStep = s.set.settings.colourStep ∧
    i.period = s.set.settings.linePeriod) ∧
  (∀ (base : Nat) (calib size density colour : Int) (dStep cStep : Nat), base ≤ 4095 → -512 ≤ calib → calib ≤ 511 →
    -256 ≤ size → size ≤ 255 → -8 ≤ density → density ≤ 8 → -8 ≤ colour → colour ≤ 8 → dStep ≤ 63 → cStep ≤ 63 →
    -1776 ≤ exposureSum base calib size density colour dStep cStep ∧
      exposureSum base calib size density colour dStep cStep ≤ 5869) ∧
  (∀ e : Nat, dwellOf e = ((256 + e % 256) * 2 ^ (e / 256)) / 16) ∧
  (∀ e : Nat, e ≤ 4095 → e / 256 ≤ 15 ∧ 16 ≤ dwellOf e ∧ dwellOf e ≤ 1046528) ∧
  (∀ e : Nat, 4 ≤ e / 256 → dwellOf e * 16 = (256 + e % 256) * 2 ^ (e / 256)) ∧
  (∀ e : Nat, e < 256 → dwellOf e = (256 + e) / 16) ∧
  dwellOf 0 = 16 ∧ dwellOf 4095 = 1046528

/-- The unit price of the highest-numbered enabled tier that the quantity reaches (R144), and the five stages of the
total with their bounds, which never falls when a count rises (R151): so a settlement never exceeds the quote (R153). -/
def Obligations.PricesComputed : Prop :=
  (∀ (e : PriceEntry) (q : Nat),
    let reached := fun t : Tier => t.threshold ≠ 0 ∧ t.threshold ≤ q
    (reached e.tier4 → e.unitPrice q = e.tier4.price) ∧
    (¬ reached e.tier4 → reached e.tier3 → e.unitPrice q = e.tier3.price) ∧
    (¬ reached e.tier4 → ¬ reached e.tier3 → reached e.tier2 → e.unitPrice q = e.tier2.price) ∧
    (¬ reached e.tier4 → ¬ reached e.tier3 → ¬ reached e.tier2 → e.unitPrice q = e.price1)) ∧
  (∀ (o : Order) (count : Line → Nat),
    let s := (o.lines.map fun l => count l * l.price).sum
    let a := s * (100 - o.discount) / 100
    let b := if o.express then a + a * o.terms.surcharge / 100 else a
    let r := o.terms.roundingUnit
    let rounded := (b + r / 2) / r * r
    priceTotal o count = (if 16777215 < rounded then 16777215 else rounded) ∧
      (priceIsCapped o count = true ↔ 16777215 < rounded)) ∧
  (∀ (o : Order) (count count' : Line → Nat), (∀ l ∈ o.lines, count l ≤ count' l) →
    priceTotal o count ≤ priceTotal o count') ∧
  (∀ (o : Order) (count : Line → Nat), o.lines.length ≤ 8 → (∀ l ∈ o.lines, count l ≤ 99 ∧ l.price ≤ 65535) →
    o.terms.surcharge ≤ 100 → o.terms.roundingUnit ≤ 100 →
    let s := (o.lines.map fun l => count l * l.price).sum
    let a := s * (100 - o.discount) / 100
    let b := a + a * o.terms.surcharge / 100
    let r := o.terms.roundingUnit
    s ≤ 51903720 ∧ s * (100 - o.discount) ≤ 5190372000 ∧ a * o.terms.surcharge ≤ 5190372000 ∧ b ≤ 103807440 ∧
      (b + r / 2) / r * r ≤ 103807500) ∧
  (∀ o : Order, (∀ l ∈ o.lines, l.d ≤ l.n) → o.withSettlement.settled = some (priceTotal o Line.d) ∧
    priceTotal o Line.d ≤ o.withQuote.quote)

/-- The routing range of an order is that of the lowest-numbered window that claims it, otherwise bins 0..23 (R129); the bin
reserved for an order is the lowest-numbered FREE one of the range of its number and source (R131). -/
def Obligations.RoutingDecoded : Prop :=
  (∀ (w : Window) (number source : Nat), w.claims number source = true ↔
    w.enabled = true ∧ w.firstBin + w.binCount ≤ 24 ∧ number / 2 ^ w.k = w.base / 2 ^ w.k ∧
      w.mask.getLsbD source = true) ∧
  (∀ (before after : List Window) (w : Window) (number source : Nat),
    (∀ v ∈ before, v.claims number source = false) → w.claims number source = true →
    routingRange (before ++ w :: after) number source = (w.firstBin, w.binCount)) ∧
  (∀ (windows : List Window) (number source : Nat), (∀ w ∈ windows, w.claims number source = false) →
    routingRange windows number source = (0, 24)) ∧
  (∀ (s : State) (o : Order), freeBinFor s o = freeBinIn s.srt.bins (routingRange s.srt.windows o.number o.source)) ∧
  (∀ (bins : List OrderBin) (first count b : Nat), freeBinIn bins (first, count) = some b ↔
    (first ≤ b ∧ b < first + count) ∧ (∃ x, bins[b]? = some x ∧ x.state = .free) ∧
      ∀ c x, first ≤ c → c < b → bins[c]? = some x → x.state ≠ .free)

/-- Print line k of a frame of Lf lines shows row y0 + (k × h) div Lf of its image, inside the crop, which without one is the
whole image; the lines a row serves are the consecutive ones from its first to its last (R68). -/
def Obligations.RowsMapped : Prop :=
  (∀ l : Line,
    (∀ c, l.crop = some c → l.rows = (c.y0, c.h) ∧ l.columns = (c.x0, c.w)) ∧
    (l.crop = none → l.rows = (0, l.height) ∧ l.columns = (0, l.width))) ∧
  (∀ (l : Line) (lf k : Nat), k < lf → 0 < l.rows.2 →
    sourceRow l lf k = l.rows.1 + k * l.rows.2 / lf ∧ sourceRow l lf k < l.rows.1 + l.rows.2) ∧
  (∀ h lf k j : Nat, k ≤ j → rowOffset h lf k ≤ rowOffset h lf j) ∧
  (∀ h lf k j : Nat, 0 < h → k < lf → j < lf →
    (rowOffset h lf j = rowOffset h lf k ↔
      firstLineOf h lf (rowOffset h lf k) ≤ j ∧ j ≤ lastLineOf h lf (rowOffset h lf k))) ∧
  (∀ h lf rel : Nat, 0 < lf → lastLineOf h lf rel < lf)

/-! ### Bytes and messages -/

/-- A submission's bytes are read back as that submission for every value its fields admit, and no other bytes are read as
it; they are its fields in the order of the kind table (R6, R183; signed fields in two's complement: log 9). A framer in HUNT
reads a frame of either link as one good frame with its kind, tag and body, whatever they are; a frame with another check is
one CRC fault, a length above the maximum one framing fault, and bytes other than the start byte are skipped. Multi-byte
fields go least significant byte first, a frame is start byte, length, kind, tag, body and check, and the check is the CRC-16
with generator 0x1021 from 0xFFFF (R171, R172). -/
def Obligations.SubmissionAndFramesReadBack : Prop :=
  (∀ n : Nat, le1 n = [BitVec.ofNat 8 n] ∧ le2 n = [BitVec.ofNat 8 n, BitVec.ofNat 8 (n / 256)] ∧
    le4 n = [BitVec.ofNat 8 n, BitVec.ofNat 8 (n / 256), BitVec.ofNat 8 (n / 65536), BitVec.ofNat 8 (n / 16777216)]) ∧
  (num [] = 0 ∧ ∀ (b : Byte) (bytes : List Byte), num (b :: bytes) = b.toNat + 256 * num bytes) ∧
  (∀ sub : Submission,
    let crop := fun l : SubLine => match l.crop with
      | some c => le1 1 ++ le2 c.x0 ++ le2 c.y0 ++ le2 c.w ++ le2 c.h
      | none => le1 0
    let line := fun l : SubLine => le4 l.imageId ++ le2 l.width ++ le2 l.height ++ crop l ++ le1 l.size ++
      le1 l.surface ++ le1 l.copies ++ [l.density, l.cyan, l.magenta, l.yellow].map (BitVec.ofInt 8)
    sub.bytes = le4 sub.number ++ le2 sub.subTag ++ le1 sub.source ++ le1 sub.priority ++
      le1 (if sub.express then 1 else 0) ++ le1 sub.discount ++ le1 sub.lines.length ++ sub.lines.flatMap line) ∧
  (∀ (kind tag : Byte) (body : List Byte),
    let checked := le2 body.length ++ [kind, tag] ++ body
    frameBytes kind tag body = 0xA5 :: (checked ++ le2 (crc16 checked).toNat)) ∧
  (crc16 [] = 0xFFFF ∧ ∀ (bytes : List Byte) (b : Byte),
    let bit := fun c : BitVec 16 => if c.msb then (c <<< 1) ^^^ 0x1021 else c <<< 1
    crc16 (bytes ++ [b]) = Nat.repeat bit 8 (crc16 bytes ^^^ (b.setWidth 16 <<< 8))) ∧
  (∀ sub : Submission, sub.number < 2 ^ 32 → sub.subTag < 2 ^ 16 → sub.source < 256 → sub.priority < 256 →
    sub.discount < 256 → sub.lines.length < 256 →
    (∀ l ∈ sub.lines, l.imageId < 2 ^ 32 ∧ l.width < 2 ^ 16 ∧ l.height < 2 ^ 16 ∧ l.size < 256 ∧ l.surface < 256 ∧
      l.copies < 256 ∧ (-128 ≤ l.density ∧ l.density ≤ 127) ∧ (-128 ≤ l.cyan ∧ l.cyan ≤ 127) ∧
      (-128 ≤ l.magenta ∧ l.magenta ≤ 127) ∧ (-128 ≤ l.yellow ∧ l.yellow ≤ 127) ∧
      ∀ c, l.crop = some c → c.x0 < 2 ^ 16 ∧ c.y0 < 2 ^ 16 ∧ c.w < 2 ^ 16 ∧ c.h < 2 ^ 16) →
    readSubmission sub.bytes = some sub) ∧
  (∀ (body : List Byte) (sub : Submission), readSubmission body = some sub → sub.bytes = body) ∧
  (∀ (max : Nat) (kind tag : Byte) (body : List Byte), max < 65536 → body.length ≤ max →
    feedAll max Framer.hunting (frameBytes kind tag body) = (Framer.hunting, [.good kind tag body])) ∧
  (∀ (max : Nat) (kind tag : Byte) (body : List Byte) (check : BitVec 16), max < 65536 → body.length ≤ max →
    check ≠ crc16 (le2 body.length ++ [kind, tag] ++ body) →
    feedAll max Framer.hunting (0xA5 :: (le2 body.length ++ [kind, tag] ++ body ++ le2 check.toNat)) =
      (Framer.hunting, [.crcFault])) ∧
  (∀ (max length : Nat) (kind tag : Byte), max < length → length < 65536 →
    feedAll max Framer.hunting (0xA5 :: (le2 length ++ [kind, tag])) = (Framer.hunting, [.framingFault])) ∧
  (∀ (max : Nat) (bytes : List Byte), (∀ b ∈ bytes, b ≠ 0xA5) →
    feedAll max Framer.hunting bytes = (Framer.hunting, []))

/-! ### Invariants -/

/-- Every step keeps LNK within its places, carries out every request that can be carried out, leaves nothing unsent with
the transmitter idle, and keeps the reply of a scheduled reset to be sent (R173, R177, R178, R180). -/
def Obligations.StepKeepsLinkSteady : Prop :=
  ∀ s t : State, LinkSteady s → step s = .next t → LinkSteady t

/-- Every step keeps the numbers of order slots, queued frames, line slots, fetch tags, web map entries and bins (R1, R24,
R66, R67, R97, R125). -/
def Obligations.StepKeepsSized : Prop :=
  ∀ s t : State, Sized s → step s = .next t → Sized t

/-- Every step keeps every setting and every table entry in its range, in the live values, in the settings memory and in an
image being saved (R44 to R47, R129, R143, R184 to R187). -/
def Obligations.StepKeepsValuesLegal : Prop :=
  ∀ s t : State, ValuesLegal s → step s = .next t → ValuesLegal t

/-- Every step keeps ORT's books: each print in flight is a frame of one line, f counts the frames of its line, d + f never
exceeds n, and each order's state and settlement agree with its copies (R1, R4, R7, R13 to R16, R26, R153). -/
def Obligations.StepKeepsAccounts : Prop :=
  ∀ s t : State, Sized s → SorterSound s → Accounts s → step s = .next t → Accounts t

/-- Every step keeps the exposure queue ordered by magazine group, priority, intake sequence, line index and copy number
behind its committed head and the strips at its front, also where a changeover makes the other magazine active (R25, R36,
R37, R40, R92, R93). -/
def Obligations.StepKeepsQueueOrdered : Prop :=
  ∀ s t : State, Sized s → SorterSound s → Accounts s → QueueOrdered s → step s = .next t → QueueOrdered t

/-- Every step keeps no bin above its capacity, an owned bin FULL exactly at it and at most four bins to an order; a drop
routed to a bin with room; the sorter in RUN only with both holding bins OPEN; and at most four pieces in transit, with a
place for a trailing cut under way (R22, R113, R123, R125, R126, R133, R137, R138). -/
def Obligations.StepKeepsSorterSound : Prop :=
  ∀ s t : State, ValuesLegal s → SorterSound s → step s = .next t → SorterSound t

/-- Every step keeps the loop of a threaded web within 0..loop_max, with the room that a run in progress has still to use
(R96, R99, R102, R105, R112). Every step keeps the law of the web map, with its marks and the flush timer, and CUT's records
in agreement with it: one gap record for each entry, the next cut that of the oldest entry, its target by the record it uses
(R97, R98, R104, R108 to R116). -/
def Obligations.StepKeepsLoopBounded : Prop :=
  (∀ s t : State, ValuesLegal s → LoopBounded s → step s = .next t → LoopBounded t) ∧
  (∀ s t : State, ValuesLegal s → Accounts s → LoopBounded s → WebMapSound s → CutterSound s → step s = .next t →
    WebMapSound t ∧ CutterSound t)

/-- Every step keeps line slots and fetch tags in agreement, and at most 8 FETCH frames waiting, one for each OUTSTANDING tag
whose timer does not run yet (R66, R67, R71, R181; that a FETCH of a tag freed before it is sent is withdrawn: log 29). Every
step keeps each slot in use that of the current frame or of the committed head, the current frame that of the run in progress
up to its last line, and none but a committed head primed (R69, R70, R72, R74). -/
def Obligations.StepKeepsFetchesSteady : Prop :=
  (∀ s t : State, Sized s → FetchesSteady s → step s = .next t → FetchesSteady t) ∧
  (∀ s t : State, ValuesLegal s → Accounts s → LoopBounded s → WebMapSound s → CutterSound s → SupplySound s →
    step s = .next t → SupplySound t)

/-- The part after reset meets the eleven invariants. -/
def Obligations.InvariantsHoldAtReset : Prop :=
  LinkSteady State.reset ∧ Sized State.reset ∧ ValuesLegal State.reset ∧ Accounts State.reset ∧
    QueueOrdered State.reset ∧ SorterSound State.reset ∧ LoopBounded State.reset ∧ WebMapSound State.reset ∧
    CutterSound State.reset ∧ FetchesSteady State.reset ∧ SupplySound State.reset

end Statements
end

