-- ==== Sys2Proof/Laws/State.lean ====
section
/-!
SUPPORT. One lemma for each field after each block update, true by definition, so that no proof unfolds a record
update of State.
-/
namespace Sys2Proof.Machine

@[simp] theorem State.setLnk_lnk (s : State) (x : Lnk) : (s.setLnk x).lnk = x := rfl
@[simp] theorem State.setLnk_ort (s : State) (x : Lnk) : (s.setLnk x).ort = s.ort := rfl
@[simp] theorem State.setLnk_sch (s : State) (x : Lnk) : (s.setLnk x).sch = s.sch := rfl
@[simp] theorem State.setLnk_ifu (s : State) (x : Lnk) : (s.setLnk x).ifu = s.ifu := rfl
@[simp] theorem State.setLnk_exu (s : State) (x : Lnk) : (s.setLnk x).exu = s.exu := rfl
@[simp] theorem State.setLnk_web (s : State) (x : Lnk) : (s.setLnk x).web = s.web := rfl
@[simp] theorem State.setLnk_cut (s : State) (x : Lnk) : (s.setLnk x).cut = s.cut := rfl
@[simp] theorem State.setLnk_srt (s : State) (x : Lnk) : (s.setLnk x).srt = s.srt := rfl
@[simp] theorem State.setLnk_prc (s : State) (x : Lnk) : (s.setLnk x).prc = s.prc := rfl
@[simp] theorem State.setLnk_set (s : State) (x : Lnk) : (s.setLnk x).set = s.set := rfl
@[simp] theorem State.setLnk_ports (s : State) (x : Lnk) : (s.setLnk x).ports = s.ports := rfl
@[simp] theorem State.setLnk_due (s : State) (x : Lnk) : (s.setLnk x).due = s.due := rfl
@[simp] theorem State.setLnk_free (s : State) (x : Lnk) : (s.setLnk x).free = s.free := rfl
@[simp] theorem State.setLnk_pending (s : State) (x : Lnk) : (s.setLnk x).pending = s.pending := rfl
@[simp] theorem State.setOrt_lnk (s : State) (x : Ort) : (s.setOrt x).lnk = s.lnk := rfl
@[simp] theorem State.setOrt_ort (s : State) (x : Ort) : (s.setOrt x).ort = x := rfl
@[simp] theorem State.setOrt_sch (s : State) (x : Ort) : (s.setOrt x).sch = s.sch := rfl
@[simp] theorem State.setOrt_ifu (s : State) (x : Ort) : (s.setOrt x).ifu = s.ifu := rfl
@[simp] theorem State.setOrt_exu (s : State) (x : Ort) : (s.setOrt x).exu = s.exu := rfl
@[simp] theorem State.setOrt_web (s : State) (x : Ort) : (s.setOrt x).web = s.web := rfl
@[simp] theorem State.setOrt_cut (s : State) (x : Ort) : (s.setOrt x).cut = s.cut := rfl
@[simp] theorem State.setOrt_srt (s : State) (x : Ort) : (s.setOrt x).srt = s.srt := rfl
@[simp] theorem State.setOrt_prc (s : State) (x : Ort) : (s.setOrt x).prc = s.prc := rfl
@[simp] theorem State.setOrt_set (s : State) (x : Ort) : (s.setOrt x).set = s.set := rfl
@[simp] theorem State.setOrt_ports (s : State) (x : Ort) : (s.setOrt x).ports = s.ports := rfl
@[simp] theorem State.setOrt_due (s : State) (x : Ort) : (s.setOrt x).due = s.due := rfl
@[simp] theorem State.setOrt_free (s : State) (x : Ort) : (s.setOrt x).free = s.free := rfl
@[simp] theorem State.setOrt_pending (s : State) (x : Ort) : (s.setOrt x).pending = s.pending := rfl
@[simp] theorem State.setSch_lnk (s : State) (x : Sch) : (s.setSch x).lnk = s.lnk := rfl
@[simp] theorem State.setSch_ort (s : State) (x : Sch) : (s.setSch x).ort = s.ort := rfl
@[simp] theorem State.setSch_sch (s : State) (x : Sch) : (s.setSch x).sch = x := rfl
@[simp] theorem State.setSch_ifu (s : State) (x : Sch) : (s.setSch x).ifu = s.ifu := rfl
@[simp] theorem State.setSch_exu (s : State) (x : Sch) : (s.setSch x).exu = s.exu := rfl
@[simp] theorem State.setSch_web (s : State) (x : Sch) : (s.setSch x).web = s.web := rfl
@[simp] theorem State.setSch_cut (s : State) (x : Sch) : (s.setSch x).cut = s.cut := rfl
@[simp] theorem State.setSch_srt (s : State) (x : Sch) : (s.setSch x).srt = s.srt := rfl
@[simp] theorem State.setSch_prc (s : State) (x : Sch) : (s.setSch x).prc = s.prc := rfl
@[simp] theorem State.setSch_set (s : State) (x : Sch) : (s.setSch x).set = s.set := rfl
@[simp] theorem State.setSch_ports (s : State) (x : Sch) : (s.setSch x).ports = s.ports := rfl
@[simp] theorem State.setSch_due (s : State) (x : Sch) : (s.setSch x).due = s.due := rfl
@[simp] theorem State.setSch_free (s : State) (x : Sch) : (s.setSch x).free = s.free := rfl
@[simp] theorem State.setSch_pending (s : State) (x : Sch) : (s.setSch x).pending = s.pending := rfl
@[simp] theorem State.setIfu_lnk (s : State) (x : Ifu) : (s.setIfu x).lnk = s.lnk := rfl
@[simp] theorem State.setIfu_ort (s : State) (x : Ifu) : (s.setIfu x).ort = s.ort := rfl
@[simp] theorem State.setIfu_sch (s : State) (x : Ifu) : (s.setIfu x).sch = s.sch := rfl
@[simp] theorem State.setIfu_ifu (s : State) (x : Ifu) : (s.setIfu x).ifu = x := rfl
@[simp] theorem State.setIfu_exu (s : State) (x : Ifu) : (s.setIfu x).exu = s.exu := rfl
@[simp] theorem State.setIfu_web (s : State) (x : Ifu) : (s.setIfu x).web = s.web := rfl
@[simp] theorem State.setIfu_cut (s : State) (x : Ifu) : (s.setIfu x).cut = s.cut := rfl
@[simp] theorem State.setIfu_srt (s : State) (x : Ifu) : (s.setIfu x).srt = s.srt := rfl
@[simp] theorem State.setIfu_prc (s : State) (x : Ifu) : (s.setIfu x).prc = s.prc := rfl
@[simp] theorem State.setIfu_set (s : State) (x : Ifu) : (s.setIfu x).set = s.set := rfl
@[simp] theorem State.setIfu_ports (s : State) (x : Ifu) : (s.setIfu x).ports = s.ports := rfl
@[simp] theorem State.setIfu_due (s : State) (x : Ifu) : (s.setIfu x).due = s.due := rfl
@[simp] theorem State.setIfu_free (s : State) (x : Ifu) : (s.setIfu x).free = s.free := rfl
@[simp] theorem State.setIfu_pending (s : State) (x : Ifu) : (s.setIfu x).pending = s.pending := rfl
@[simp] theorem State.setExu_lnk (s : State) (x : Exu) : (s.setExu x).lnk = s.lnk := rfl
@[simp] theorem State.setExu_ort (s : State) (x : Exu) : (s.setExu x).ort = s.ort := rfl
@[simp] theorem State.setExu_sch (s : State) (x : Exu) : (s.setExu x).sch = s.sch := rfl
@[simp] theorem State.setExu_ifu (s : State) (x : Exu) : (s.setExu x).ifu = s.ifu := rfl
@[simp] theorem State.setExu_exu (s : State) (x : Exu) : (s.setExu x).exu = x := rfl
@[simp] theorem State.setExu_web (s : State) (x : Exu) : (s.setExu x).web = s.web := rfl
@[simp] theorem State.setExu_cut (s : State) (x : Exu) : (s.setExu x).cut = s.cut := rfl
@[simp] theorem State.setExu_srt (s : State) (x : Exu) : (s.setExu x).srt = s.srt := rfl
@[simp] theorem State.setExu_prc (s : State) (x : Exu) : (s.setExu x).prc = s.prc := rfl
@[simp] theorem State.setExu_set (s : State) (x : Exu) : (s.setExu x).set = s.set := rfl
@[simp] theorem State.setExu_ports (s : State) (x : Exu) : (s.setExu x).ports = s.ports := rfl
@[simp] theorem State.setExu_due (s : State) (x : Exu) : (s.setExu x).due = s.due := rfl
@[simp] theorem State.setExu_free (s : State) (x : Exu) : (s.setExu x).free = s.free := rfl
@[simp] theorem State.setExu_pending (s : State) (x : Exu) : (s.setExu x).pending = s.pending := rfl
@[simp] theorem State.setWeb_lnk (s : State) (x : Web) : (s.setWeb x).lnk = s.lnk := rfl
@[simp] theorem State.setWeb_ort (s : State) (x : Web) : (s.setWeb x).ort = s.ort := rfl
@[simp] theorem State.setWeb_sch (s : State) (x : Web) : (s.setWeb x).sch = s.sch := rfl
@[simp] theorem State.setWeb_ifu (s : State) (x : Web) : (s.setWeb x).ifu = s.ifu := rfl
@[simp] theorem State.setWeb_exu (s : State) (x : Web) : (s.setWeb x).exu = s.exu := rfl
@[simp] theorem State.setWeb_web (s : State) (x : Web) : (s.setWeb x).web = x := rfl
@[simp] theorem State.setWeb_cut (s : State) (x : Web) : (s.setWeb x).cut = s.cut := rfl
@[simp] theorem State.setWeb_srt (s : State) (x : Web) : (s.setWeb x).srt = s.srt := rfl
@[simp] theorem State.setWeb_prc (s : State) (x : Web) : (s.setWeb x).prc = s.prc := rfl
@[simp] theorem State.setWeb_set (s : State) (x : Web) : (s.setWeb x).set = s.set := rfl
@[simp] theorem State.setWeb_ports (s : State) (x : Web) : (s.setWeb x).ports = s.ports := rfl
@[simp] theorem State.setWeb_due (s : State) (x : Web) : (s.setWeb x).due = s.due := rfl
@[simp] theorem State.setWeb_free (s : State) (x : Web) : (s.setWeb x).free = s.free := rfl
@[simp] theorem State.setWeb_pending (s : State) (x : Web) : (s.setWeb x).pending = s.pending := rfl
@[simp] theorem State.setCut_lnk (s : State) (x : Cut) : (s.setCut x).lnk = s.lnk := rfl
@[simp] theorem State.setCut_ort (s : State) (x : Cut) : (s.setCut x).ort = s.ort := rfl
@[simp] theorem State.setCut_sch (s : State) (x : Cut) : (s.setCut x).sch = s.sch := rfl
@[simp] theorem State.setCut_ifu (s : State) (x : Cut) : (s.setCut x).ifu = s.ifu := rfl
@[simp] theorem State.setCut_exu (s : State) (x : Cut) : (s.setCut x).exu = s.exu := rfl
@[simp] theorem State.setCut_web (s : State) (x : Cut) : (s.setCut x).web = s.web := rfl
@[simp] theorem State.setCut_cut (s : State) (x : Cut) : (s.setCut x).cut = x := rfl
@[simp] theorem State.setCut_srt (s : State) (x : Cut) : (s.setCut x).srt = s.srt := rfl
@[simp] theorem State.setCut_prc (s : State) (x : Cut) : (s.setCut x).prc = s.prc := rfl
@[simp] theorem State.setCut_set (s : State) (x : Cut) : (s.setCut x).set = s.set := rfl
@[simp] theorem State.setCut_ports (s : State) (x : Cut) : (s.setCut x).ports = s.ports := rfl
@[simp] theorem State.setCut_due (s : State) (x : Cut) : (s.setCut x).due = s.due := rfl
@[simp] theorem State.setCut_free (s : State) (x : Cut) : (s.setCut x).free = s.free := rfl
@[simp] theorem State.setCut_pending (s : State) (x : Cut) : (s.setCut x).pending = s.pending := rfl
@[simp] theorem State.setSrt_lnk (s : State) (x : Srt) : (s.setSrt x).lnk = s.lnk := rfl
@[simp] theorem State.setSrt_ort (s : State) (x : Srt) : (s.setSrt x).ort = s.ort := rfl
@[simp] theorem State.setSrt_sch (s : State) (x : Srt) : (s.setSrt x).sch = s.sch := rfl
@[simp] theorem State.setSrt_ifu (s : State) (x : Srt) : (s.setSrt x).ifu = s.ifu := rfl
@[simp] theorem State.setSrt_exu (s : State) (x : Srt) : (s.setSrt x).exu = s.exu := rfl
@[simp] theorem State.setSrt_web (s : State) (x : Srt) : (s.setSrt x).web = s.web := rfl
@[simp] theorem State.setSrt_cut (s : State) (x : Srt) : (s.setSrt x).cut = s.cut := rfl
@[simp] theorem State.setSrt_srt (s : State) (x : Srt) : (s.setSrt x).srt = x := rfl
@[simp] theorem State.setSrt_prc (s : State) (x : Srt) : (s.setSrt x).prc = s.prc := rfl
@[simp] theorem State.setSrt_set (s : State) (x : Srt) : (s.setSrt x).set = s.set := rfl
@[simp] theorem State.setSrt_ports (s : State) (x : Srt) : (s.setSrt x).ports = s.ports := rfl
@[simp] theorem State.setSrt_due (s : State) (x : Srt) : (s.setSrt x).due = s.due := rfl
@[simp] theorem State.setSrt_free (s : State) (x : Srt) : (s.setSrt x).free = s.free := rfl
@[simp] theorem State.setSrt_pending (s : State) (x : Srt) : (s.setSrt x).pending = s.pending := rfl
@[simp] theorem State.setPrc_lnk (s : State) (x : Prc) : (s.setPrc x).lnk = s.lnk := rfl
@[simp] theorem State.setPrc_ort (s : State) (x : Prc) : (s.setPrc x).ort = s.ort := rfl
@[simp] theorem State.setPrc_sch (s : State) (x : Prc) : (s.setPrc x).sch = s.sch := rfl
@[simp] theorem State.setPrc_ifu (s : State) (x : Prc) : (s.setPrc x).ifu = s.ifu := rfl
@[simp] theorem State.setPrc_exu (s : State) (x : Prc) : (s.setPrc x).exu = s.exu := rfl
@[simp] theorem State.setPrc_web (s : State) (x : Prc) : (s.setPrc x).web = s.web := rfl
@[simp] theorem State.setPrc_cut (s : State) (x : Prc) : (s.setPrc x).cut = s.cut := rfl
@[simp] theorem State.setPrc_srt (s : State) (x : Prc) : (s.setPrc x).srt = s.srt := rfl
@[simp] theorem State.setPrc_prc (s : State) (x : Prc) : (s.setPrc x).prc = x := rfl
@[simp] theorem State.setPrc_set (s : State) (x : Prc) : (s.setPrc x).set = s.set := rfl
@[simp] theorem State.setPrc_ports (s : State) (x : Prc) : (s.setPrc x).ports = s.ports := rfl
@[simp] theorem State.setPrc_due (s : State) (x : Prc) : (s.setPrc x).due = s.due := rfl
@[simp] theorem State.setPrc_free (s : State) (x : Prc) : (s.setPrc x).free = s.free := rfl
@[simp] theorem State.setPrc_pending (s : State) (x : Prc) : (s.setPrc x).pending = s.pending := rfl
@[simp] theorem State.setSet_lnk (s : State) (x : SettingsStore) : (s.setSet x).lnk = s.lnk := rfl
@[simp] theorem State.setSet_ort (s : State) (x : SettingsStore) : (s.setSet x).ort = s.ort := rfl
@[simp] theorem State.setSet_sch (s : State) (x : SettingsStore) : (s.setSet x).sch = s.sch := rfl
@[simp] theorem State.setSet_ifu (s : State) (x : SettingsStore) : (s.setSet x).ifu = s.ifu := rfl
@[simp] theorem State.setSet_exu (s : State) (x : SettingsStore) : (s.setSet x).exu = s.exu := rfl
@[simp] theorem State.setSet_web (s : State) (x : SettingsStore) : (s.setSet x).web = s.web := rfl
@[simp] theorem State.setSet_cut (s : State) (x : SettingsStore) : (s.setSet x).cut = s.cut := rfl
@[simp] theorem State.setSet_srt (s : State) (x : SettingsStore) : (s.setSet x).srt = s.srt := rfl
@[simp] theorem State.setSet_prc (s : State) (x : SettingsStore) : (s.setSet x).prc = s.prc := rfl
@[simp] theorem State.setSet_set (s : State) (x : SettingsStore) : (s.setSet x).set = x := rfl
@[simp] theorem State.setSet_ports (s : State) (x : SettingsStore) : (s.setSet x).ports = s.ports := rfl
@[simp] theorem State.setSet_due (s : State) (x : SettingsStore) : (s.setSet x).due = s.due := rfl
@[simp] theorem State.setSet_free (s : State) (x : SettingsStore) : (s.setSet x).free = s.free := rfl
@[simp] theorem State.setSet_pending (s : State) (x : SettingsStore) : (s.setSet x).pending = s.pending := rfl
@[simp] theorem State.setPorts_lnk (s : State) (x : List PortOut) : (s.setPorts x).lnk = s.lnk := rfl
@[simp] theorem State.setPorts_ort (s : State) (x : List PortOut) : (s.setPorts x).ort = s.ort := rfl
@[simp] theorem State.setPorts_sch (s : State) (x : List PortOut) : (s.setPorts x).sch = s.sch := rfl
@[simp] theorem State.setPorts_ifu (s : State) (x : List PortOut) : (s.setPorts x).ifu = s.ifu := rfl
@[simp] theorem State.setPorts_exu (s : State) (x : List PortOut) : (s.setPorts x).exu = s.exu := rfl
@[simp] theorem State.setPorts_web (s : State) (x : List PortOut) : (s.setPorts x).web = s.web := rfl
@[simp] theorem State.setPorts_cut (s : State) (x : List PortOut) : (s.setPorts x).cut = s.cut := rfl
@[simp] theorem State.setPorts_srt (s : State) (x : List PortOut) : (s.setPorts x).srt = s.srt := rfl
@[simp] theorem State.setPorts_prc (s : State) (x : List PortOut) : (s.setPorts x).prc = s.prc := rfl
@[simp] theorem State.setPorts_set (s : State) (x : List PortOut) : (s.setPorts x).set = s.set := rfl
@[simp] theorem State.setPorts_ports (s : State) (x : List PortOut) : (s.setPorts x).ports = x := rfl
@[simp] theorem State.setPorts_due (s : State) (x : List PortOut) : (s.setPorts x).due = s.due := rfl
@[simp] theorem State.setPorts_free (s : State) (x : List PortOut) : (s.setPorts x).free = s.free := rfl
@[simp] theorem State.setPorts_pending (s : State) (x : List PortOut) : (s.setPorts x).pending = s.pending := rfl
@[simp] theorem State.setDue_lnk (s : State) (x : Due) : (s.setDue x).lnk = s.lnk := rfl
@[simp] theorem State.setDue_ort (s : State) (x : Due) : (s.setDue x).ort = s.ort := rfl
@[simp] theorem State.setDue_sch (s : State) (x : Due) : (s.setDue x).sch = s.sch := rfl
@[simp] theorem State.setDue_ifu (s : State) (x : Due) : (s.setDue x).ifu = s.ifu := rfl
@[simp] theorem State.setDue_exu (s : State) (x : Due) : (s.setDue x).exu = s.exu := rfl
@[simp] theorem State.setDue_web (s : State) (x : Due) : (s.setDue x).web = s.web := rfl
@[simp] theorem State.setDue_cut (s : State) (x : Due) : (s.setDue x).cut = s.cut := rfl
@[simp] theorem State.setDue_srt (s : State) (x : Due) : (s.setDue x).srt = s.srt := rfl
@[simp] theorem State.setDue_prc (s : State) (x : Due) : (s.setDue x).prc = s.prc := rfl
@[simp] theorem State.setDue_set (s : State) (x : Due) : (s.setDue x).set = s.set := rfl
@[simp] theorem State.setDue_ports (s : State) (x : Due) : (s.setDue x).ports = s.ports := rfl
@[simp] theorem State.setDue_due (s : State) (x : Due) : (s.setDue x).due = x := rfl
@[simp] theorem State.setDue_free (s : State) (x : Due) : (s.setDue x).free = s.free := rfl
@[simp] theorem State.setDue_pending (s : State) (x : Due) : (s.setDue x).pending = s.pending := rfl
@[simp] theorem State.setFree_lnk (s : State) (x : Nat) : (s.setFree x).lnk = s.lnk := rfl
@[simp] theorem State.setFree_ort (s : State) (x : Nat) : (s.setFree x).ort = s.ort := rfl
@[simp] theorem State.setFree_sch (s : State) (x : Nat) : (s.setFree x).sch = s.sch := rfl
@[simp] theorem State.setFree_ifu (s : State) (x : Nat) : (s.setFree x).ifu = s.ifu := rfl
@[simp] theorem State.setFree_exu (s : State) (x : Nat) : (s.setFree x).exu = s.exu := rfl
@[simp] theorem State.setFree_web (s : State) (x : Nat) : (s.setFree x).web = s.web := rfl
@[simp] theorem State.setFree_cut (s : State) (x : Nat) : (s.setFree x).cut = s.cut := rfl
@[simp] theorem State.setFree_srt (s : State) (x : Nat) : (s.setFree x).srt = s.srt := rfl
@[simp] theorem State.setFree_prc (s : State) (x : Nat) : (s.setFree x).prc = s.prc := rfl
@[simp] theorem State.setFree_set (s : State) (x : Nat) : (s.setFree x).set = s.set := rfl
@[simp] theorem State.setFree_ports (s : State) (x : Nat) : (s.setFree x).ports = s.ports := rfl
@[simp] theorem State.setFree_due (s : State) (x : Nat) : (s.setFree x).due = s.due := rfl
@[simp] theorem State.setFree_free (s : State) (x : Nat) : (s.setFree x).free = x := rfl
@[simp] theorem State.setFree_pending (s : State) (x : Nat) : (s.setFree x).pending = s.pending := rfl
@[simp] theorem State.setPending_lnk (s : State) (x : List Sys2Proof.Instr) : (s.setPending x).lnk = s.lnk := rfl
@[simp] theorem State.setPending_ort (s : State) (x : List Sys2Proof.Instr) : (s.setPending x).ort = s.ort := rfl
@[simp] theorem State.setPending_sch (s : State) (x : List Sys2Proof.Instr) : (s.setPending x).sch = s.sch := rfl
@[simp] theorem State.setPending_ifu (s : State) (x : List Sys2Proof.Instr) : (s.setPending x).ifu = s.ifu := rfl
@[simp] theorem State.setPending_exu (s : State) (x : List Sys2Proof.Instr) : (s.setPending x).exu = s.exu := rfl
@[simp] theorem State.setPending_web (s : State) (x : List Sys2Proof.Instr) : (s.setPending x).web = s.web := rfl
@[simp] theorem State.setPending_cut (s : State) (x : List Sys2Proof.Instr) : (s.setPending x).cut = s.cut := rfl
@[simp] theorem State.setPending_srt (s : State) (x : List Sys2Proof.Instr) : (s.setPending x).srt = s.srt := rfl
@[simp] theorem State.setPending_prc (s : State) (x : List Sys2Proof.Instr) : (s.setPending x).prc = s.prc := rfl
@[simp] theorem State.setPending_set (s : State) (x : List Sys2Proof.Instr) : (s.setPending x).set = s.set := rfl
@[simp] theorem State.setPending_ports (s : State) (x : List Sys2Proof.Instr) : (s.setPending x).ports = s.ports := rfl
@[simp] theorem State.setPending_due (s : State) (x : List Sys2Proof.Instr) : (s.setPending x).due = s.due := rfl
@[simp] theorem State.setPending_free (s : State) (x : List Sys2Proof.Instr) : (s.setPending x).free = s.free := rfl
@[simp] theorem State.setPending_pending (s : State) (x : List Sys2Proof.Instr) : (s.setPending x).pending = x := rfl

end Sys2Proof.Machine
end

