-- ==== Sys2Proof/Laws/Keeps.lean ====
section
/-!
SUPPORT. What the tests at the end of an event leave as it was: every operation they are made of has one lemma about the
relation `Keeps` of Safety.lean, and `quiesce_keeps` says it of the end of an event.
-/
namespace Sys2Proof.Machine

/-! ### Reflexive and transitive -/

theorem LnkKeeps.rfl {x : Lnk} : LnkKeeps x x := by
  constructor <;> first | exact ⟨[], by simp⟩ | simp

theorem LnkKeeps.trans {x y z : Lnk} (h : LnkKeeps x y) (k : LnkKeeps y z) : LnkKeeps x z where
  power := k.power.trans h.power
  stationRx := k.stationRx.trans h.stationRx
  imageRx := k.imageRx.trans h.imageRx
  waiting := k.waiting.trans h.waiting
  replies := k.replies.trans h.replies
  tx := k.tx.trans h.tx
  resetPending := k.resetPending.trans h.resetPending
  stationCrc := k.stationCrc.trans h.stationCrc
  stationFraming := k.stationFraming.trans h.stationFraming
  imageCrc := k.imageCrc.trans h.imageCrc
  imageFraming := k.imageFraming.trans h.imageFraming
  rxOverruns := k.rxOverruns.trans h.rxOverruns
  notices := fun e => k.notices (h.notices e)
  raised := by
    obtain ⟨n, e, hn⟩ := h.raised
    obtain ⟨m, e', hm⟩ := k.raised
    exact ⟨n ++ m, by rw [e', e, List.append_assoc], fun x hx => (List.mem_append.mp hx).elim (hn x) (hm x)⟩

theorem OrtKeeps.rfl {x : Ort} : OrtKeeps x x := ⟨Eq.refl _, Eq.refl _⟩

theorem OrtKeeps.trans {x y z : Ort} (h : OrtKeeps x y) (k : OrtKeeps y z) : OrtKeeps x z :=
  ⟨k.slots.trans h.slots, k.seq.trans h.seq⟩

theorem IfuKeeps.rfl {x : Ifu} : IfuKeeps x x := ⟨Eq.refl _, Eq.refl _, Eq.refl _, Eq.refl _⟩

theorem IfuKeeps.trans {x y z : Ifu} (h : IfuKeeps x y) (k : IfuKeeps y z) : IfuKeeps x z :=
  ⟨k.tags.trans h.tags, k.slots.trans h.slots, k.current.trans h.current, k.expiries.trans h.expiries⟩

theorem MagKeeps.rfl {r : MagRecord} : MagKeeps r r := ⟨Eq.refl _, Or.inl (Eq.refl _)⟩

theorem MagKeeps.trans {r q p : MagRecord} (h : MagKeeps r q) (k : MagKeeps q p) : MagKeeps r p := by
  have e : { p with state := r.state } = r := by
    rw [← h.fields, ← k.fields]
  refine ⟨e, ?_⟩
  rcases k.state with k' | k'
  · rw [k']; exact h.state
  · exact Or.inr k'

theorem WebKeeps.rfl {x : Web} : WebKeeps x x :=
  ⟨Eq.refl _, Eq.refl _, Eq.refl _, .rfl, .rfl, id, id, Or.inl (Eq.refl _), Or.inl ⟨Eq.refl _, Eq.refl _⟩,
    fun _ f t => ⟨f, t⟩⟩

theorem WebKeeps.trans {x y z : Web} (h : WebKeeps x y) (k : WebKeeps y z) : WebKeeps x z where
  map := k.map.trans h.map
  run := k.run.trans h.run
  active := k.active.trans h.active
  magA := h.magA.trans k.magA
  magB := h.magB.trans k.magB
  fault := fun hx => k.fault (h.fault hx)
  unclearing := fun hz => h.unclearing (k.unclearing hz)
  threads := by
    rcases k.threads with e | ⟨e, f⟩
    · rcases h.threads with e' | e'
      · exact Or.inl (e.trans e')
      · exact Or.inr e'
    · rcases h.threads with e' | e'
      · exact Or.inr ⟨e'.symm.trans e, fun g => f (h.fault g)⟩
      · exact Or.inr e'
  coords := by
    rcases h.coords with e | ⟨e, f⟩
    · rcases k.coords with e' | ⟨e', f'⟩
      · exact Or.inl ⟨e'.1.trans e.1, e'.2.trans e.2⟩
      · exact Or.inr ⟨e'.imp (fun g => h.map ▸ g) h.unclearing, f'⟩
    · refine Or.inr ⟨e, ?_⟩
      rcases k.threads with e' | e'
      · rw [e']; exact f
      · exact absurd e'.1 f
  runs := fun r f t => k.runs (r.imp (fun e => h.run ▸ e) h.fault) (h.runs r f t).1 (h.runs r f t).2

theorem CutKeeps.rfl {x : Cut} : CutKeeps x x := Or.inl (Eq.refl _)

theorem CutterState.stopFeed_stopFeed (c : CutterState) : c.stopFeed.stopFeed = c.stopFeed := by cases c <;> rfl

theorem CutKeeps.trans {x y z : Cut} (h : CutKeeps x y) (k : CutKeeps y z) : CutKeeps x z := by
  rcases h with h | h <;> rcases k with k | k <;> subst h <;> subst k
  · exact Or.inl (Eq.refl _)
  · exact Or.inr (Eq.refl _)
  · exact Or.inr (Eq.refl _)
  · exact Or.inr (by simp [CutterState.stopFeed_stopFeed])

theorem SrtKeeps.rfl {x : Srt} : SrtKeeps x x := by constructor <;> first | rfl | exact fun _ _ e _ => e | exact fun _ _ e _ => Or.inl e

theorem SrtKeeps.trans {x y z : Srt} (h : SrtKeeps x y) (k : SrtKeeps y z) : SrtKeeps x z :=
  ⟨k.transit.trans h.transit, k.dropping.trans h.dropping, k.jammed.trans h.jammed, k.state.trans h.state,
    k.overflow.trans h.overflow, k.reject.trans h.reject, k.windows.trans h.windows, k.discards.trans h.discards,
    k.ended.trans h.ended, k.unregDone.trans h.unregDone, k.sensors.trans h.sensors,
    fun b r e hf => k.taken b r (h.taken b r e hf) hf, fun b r e hf => by
      rcases h.free b r e hf with e' | ⟨n, e'⟩
      · exact k.free b r e' hf
      · exact Or.inr ⟨n, k.taken b _ e' nofun⟩⟩

theorem MarkKeeps.rfl {a : StripMark} : MarkKeeps a a := Or.inl (Eq.refl _)

theorem MarkKeeps.trans {a b c : StripMark} (h : MarkKeeps a b) (k : MarkKeeps b c) : MarkKeeps a c := by
  unfold MarkKeeps at *
  rcases k with k | k | ⟨k, f, k'⟩
  · rw [k]
    exact h
  · exact Or.inr (Or.inl k)
  · rcases h with h | h | ⟨h, g, h'⟩
    · exact Or.inr (Or.inr ⟨h ▸ k, f, k'⟩)
    · rw [k] at h
      cases h
    · exact Or.inr (Or.inr ⟨h, f, k'⟩)

theorem SchKeeps.rfl {x : Sch} : SchKeeps x x := ⟨id, fun _ => .rfl⟩

theorem SchKeeps.trans {x y z : Sch} (h : SchKeeps x y) (k : SchKeeps y z) : SchKeeps x z :=
  ⟨fun e => k.room (h.room e), fun m => (h.marks m).trans (k.marks m)⟩

theorem Settles.rfl {s : State} : Settles s s :=
  ⟨.rfl, .rfl, .rfl, Eq.refl _, .rfl, .rfl, .rfl, Eq.refl _, Eq.refl _, Eq.refl _, Eq.refl _⟩

theorem Settles.trans {s t u : State} (h : Settles s t) (k : Settles t u) : Settles s u :=
  ⟨h.ort.trans k.ort, h.sch.trans k.sch, h.ifu.trans k.ifu, k.exu.trans h.exu, h.web.trans k.web, h.cut.trans k.cut,
    h.srt.trans k.srt, k.prc.trans h.prc, k.set.trans h.set, k.free.trans h.free, k.pending.trans h.pending⟩

theorem Keeps.rfl {s : State} : Keeps s s := { Settles.rfl with lnk := .rfl }

theorem Keeps.trans {s t u : State} (h : Keeps s t) (k : Keeps t u) : Keeps s u :=
  { h.toSettles.trans k.toSettles with lnk := h.lnk.trans k.lnk }

/-- Transitivity with the later operation first, as a goal about nested operations is read. -/
theorem Keeps.after {s t u : State} (k : Keeps t u) (h : Keeps s t) : Keeps s u := h.trans k

/-- A change of WEB's ask, flush timer or flush alone; during a run neither timer nor flush starts. -/
theorem WebKeeps.aside {x y : Web} (hm : y.map = x.map) (hr : y.run = x.run) (ha : y.active = x.active)
    (hA : y.magA = x.magA) (hB : y.magB = x.magB) (hs : y.state = x.state) (hf : y.fIn = x.fIn) (hc : y.c = x.c)
    (ht : y.threading = x.threading)
    (hx : x.run ≠ none ∨ x.state = .fault → x.flush = none → x.flushTimer = none → y.flush = none ∧ y.flushTimer = none) :
    WebKeeps x y :=
  ⟨hm, hr, ha, hA ▸ .rfl, hB ▸ .rfl, fun e => hs.trans e, fun e => hs.symm.trans e, Or.inl ht, Or.inl ⟨hf, hc⟩, hx⟩

/-! ### Block updates -/

theorem keeps_setLnk {s : State} {x : Lnk} (h : LnkKeeps s.lnk x) : Keeps s (s.setLnk x) := { Keeps.rfl with lnk := h }

theorem keeps_setOrt {s : State} {x : Ort} (h : OrtKeeps s.ort x) : Keeps s (s.setOrt x) := { Keeps.rfl with ort := h }

theorem keeps_setSch {s : State} {x : Sch} (h : SchKeeps s.sch x) : Keeps s (s.setSch x) := { Keeps.rfl with sch := h }

/-- SCH changed but for its queue. -/
theorem keeps_sameQueue (s : State) (x : Sch) (h : x.queue = s.sch.queue) (ha : x.markA = s.sch.markA)
    (hb : x.markB = s.sch.markB) : Keeps s (s.setSch x) :=
  keeps_setSch ⟨fun e => h ▸ e, fun m => by cases m <;> exact Or.inl (by assumption)⟩

theorem keeps_setIfu {s : State} {x : Ifu} (h : IfuKeeps s.ifu x) : Keeps s (s.setIfu x) := { Keeps.rfl with ifu := h }

theorem keeps_setWeb {s : State} {x : Web} (h : WebKeeps s.web x) : Keeps s (s.setWeb x) := { Keeps.rfl with web := h }

theorem keeps_setCut {s : State} {x : Cut} (h : CutKeeps s.cut x) : Keeps s (s.setCut x) := { Keeps.rfl with cut := h }

theorem keeps_setSrt {s : State} {x : Srt} (h : SrtKeeps s.srt x) : Keeps s (s.setSrt x) := { Keeps.rfl with srt := h }

theorem keeps_setDue (s : State) (x : Due) : Keeps s (s.setDue x) := { Keeps.rfl with }

theorem keeps_setPorts (s : State) (x : List PortOut) : Keeps s (s.setPorts x) := { Keeps.rfl with }

/-! ### Shared operations -/

theorem drive_keeps (p : PortOut) (s : State) : Keeps s (drive p s) := keeps_setPorts s _

theorem owePass_keeps (s : State) : Keeps s (owePass s) := keeps_setDue s _

theorem oweRun_keeps (s : State) : Keeps s (oweRun s) := keeps_setDue s _

theorem oweWindow_keeps (s : State) : Keeps s (oweWindow s) := keeps_setDue s _

theorem oweFlush_keeps (s : State) : Keeps s (oweFlush s) := keeps_setDue s _

theorem oweAsk_keeps (s : State) : Keeps s (oweAsk s) := keeps_setDue s _

theorem oweQueue_keeps (s : State) : Keeps s (oweQueue s) := keeps_setDue s _

theorem oweLeave_keeps (s : State) : Keeps s (oweLeave s) := (oweQueue_keeps s).trans (owePass_keeps _)

theorem oweMagazine_keeps (s : State) : Keeps s (oweMagazine s) :=
  ((owePass_keeps s).trans (oweRun_keeps _)).trans (oweWindow_keeps _)

theorem sendNotice_keeps {k : NoticeKind} (hk : k.ofTests = true) (body : List Byte) (s : State) :
    Keeps s (sendNotice k body s) := by
  unfold sendNotice
  dsimp only
  split
  · exact .rfl
  · split
    · rename_i _ h
      refine keeps_setLnk { LnkKeeps.rfl with
        notices := fun _ => ?_
        raised := ⟨[_], Eq.refl _, by simpa using hk⟩ }
      simp
      omega
    · exact keeps_setLnk { LnkKeeps.rfl with notices := id }

theorem mark_setMark (x : Sch) (m n : Mag) (k : StripMark) : (x.setMark m k).mark n = if n = m then k else x.mark n := by
  cases m <;> cases n <;> rfl

theorem setMark_keeps {s : State} {m : Mag} {k : StripMark} (h : MarkKeeps (s.sch.mark m) k) :
    Keeps s (s.setMark m k) :=
  keeps_setSch ⟨fun e => by cases m <;> exact e, fun n => by
    rw [mark_setMark]
    split
    · rename_i e
      exact e ▸ h
    · exact .rfl⟩

/-- A magazine record replaced by one that keeps its fields. -/
theorem setMag_keeps {s : State} {m : Mag} {r : MagRecord} (h : MagKeeps (s.web.mag m) r) : Keeps s (s.setMag m r) := by
  unfold State.setMag
  cases m
  · exact keeps_setWeb { WebKeeps.rfl with magA := h }
  · exact keeps_setWeb { WebKeeps.rfl with magB := h }

/-! ### Orders -/

theorem Order.stable_modLine (o : Order) (i : Nat) (f : Line → Line) (h : ∀ l, (f l).stable = l.stable) :
    (o.modLine i f).stable = o.stable := by
  unfold Order.modLine
  split
  · rfl
  · simp only [Order.stable]
    congr 1
    apply List.ext_getElem?
    intro j
    simp only [List.getElem?_map, List.getElem?_modify]
    cases hj : o.lines[j]? <;> simp
    split <;> simp [h]

theorem orderAt_eq_some {s : State} {slot number : Nat} {o : Order} (h : s.orderAt slot number = some o) :
    s.ort.slots[slot]? = some (some o) ∧ o.number = number := by
  unfold State.orderAt at h
  split at h
  · rename_i o' e
    split at h
    · rename_i hn
      cases h
      refine ⟨?_, hn⟩
      rw [List.getD_eq_getElem?_getD] at e
      cases hs : s.ort.slots[slot]? with
      | none => simp [hs] at e
      | some x => simp [hs] at e; rw [e]
    · cases h
  · cases h

/-- A slot's order replaced by one that scheduling could have made of it. -/
theorem setOrder_keeps {s : State} {slot : Nat} {o o' : Order} (h : s.ort.slots[slot]? = some (some o))
    (e : o'.stable = o.stable) : Keeps s (s.setOrder slot (some o')) := by
  refine keeps_setOrt ⟨?_, Eq.refl _⟩
  apply List.ext_getElem?
  intro j
  simp only [List.getElem?_map, List.getElem?_set]
  split
  · rename_i hj
    subst hj
    split
    · rw [h]
      simp [e]
    · rename_i hl
      rw [List.getElem?_eq_none (by omega)]
  · rfl

theorem applyReport_keeps (r : PrintRef) (f : Line → Line) (h : ∀ l, (f l).stable = l.stable) (s : State) :
    Keeps s (applyReport r f s) := by
  unfold applyReport
  split
  · rename_i o e
    exact setOrder_keeps (orderAt_eq_some e).1 (Order.stable_modLine o _ f h)
  · exact .rfl

theorem endOrder_keeps {s : State} {slot : Nat} {o : Order} (h : s.ort.slots[slot]? = some (some o)) (final : OrderState)
    (outcome : Nat) : Keeps s (endOrder slot o final outcome s) := by
  unfold endOrder
  exact (setOrder_keeps h (by rfl)).trans (sendNotice_keeps rfl _ _)

theorem stateCheck_keeps (slot number : Nat) (s : State) : Keeps s (stateCheck slot number s) := by
  unfold stateCheck
  split
  · rename_i o e
    have h := (orderAt_eq_some e).1
    split
    · split
      · exact endOrder_keeps h _ _
      · exact .rfl
    · split
      · exact endOrder_keeps h _ _
      · exact .rfl
    · exact .rfl
    · exact .rfl
    · exact .rfl
  · exact .rfl

theorem reportReturned_keeps (r : PrintRef) (s : State) : Keeps s (reportReturned r s) :=
  (owePass_keeps _).after ((stateCheck_keeps _ _ _).after (applyReport_keeps r _ (by intro _; rfl) s))

theorem reportCreated_keeps (r : PrintRef) (s : State) : Keeps s (reportCreated r s) := by
  unfold reportCreated
  split
  · rename_i o e
    exact setOrder_keeps (orderAt_eq_some e).1 (Order.stable_modLine o _ _ (by intro _; rfl))
  · exact .rfl

/-! ### The exposure queue -/

theorem FetchTag.held_release (n : Nat) (x : FetchTag) : (x.release n).held = x.held := by
  cases x
  · rfl
  · simp only [FetchTag.release]
    split <;> rfl
  · rfl

theorem releaseFrame_keeps (n : Nat) (s : State) : Keeps s (releaseFrame n s) := by
  refine keeps_setIfu ⟨?_, by simp, Eq.refl _, Eq.refl _⟩
  simp [List.map_map, Function.comp_def, FetchTag.held_release]

theorem clearHeadSupply_keeps (n : Nat) (s : State) : Keeps s (clearHeadSupply n s) :=
  (keeps_setIfu (by exact ⟨rfl, rfl, rfl, rfl⟩)).after (releaseFrame_keeps n s)

theorem reportRemovals_keeps (fs : List Frame) (s : State) : Keeps s (reportRemovals fs s) := by
  induction fs generalizing s with
  | nil => exact .rfl
  | cons f fs ih =>
    unfold reportRemovals
    split
    · exact (reportReturned_keeps _ s).trans (ih _)
    · exact ih s

theorem removeFrames_keeps (p : Frame → Bool) (report : Bool) (s : State) : Keeps s (removeFrames p report s) := by
  have hr (b : Bool) (fs : List Frame) (u : State) : Keeps u (if b then reportRemovals fs u else u) := by
    split
    · exact reportRemovals_keeps fs u
    · exact .rfl
  have hc (b : Bool) (x : Option Frame) (u : State) : Keeps u (match x with
      | some h => if b then clearHeadSupply h.number u else u
      | none => u) := by
    split
    · split
      · exact clearHeadSupply_keeps _ u
      · exact .rfl
    · exact .rfl
  unfold removeFrames
  dsimp only
  split
  · exact .rfl
  · exact (oweLeave_keeps _).after ((hr _ _ _).after ((hc _ _ _).after (keeps_setSch ⟨fun e =>
      Nat.le_trans (List.length_filter_le _ _) e, fun _ => .rfl⟩)))

theorem length_placeFrame (s : State) (f : Frame) (q : List Frame) : (placeFrame s f q).length = q.length + 1 := by
  have h (p : Frame → Bool) (xs : List Frame) : (xs.takeWhile p).length + (xs.dropWhile p).length = xs.length := by
    rw [← List.length_append, List.takeWhile_append_dropWhile]
  have e := h (fun x => !lexLt (frameKey s f) (frameKey s x)) (q.drop (fixedCount s.sch.committed q))
  simp only [placeFrame, List.length_append, List.length_cons, List.length_take]
  rw [List.length_drop] at e
  omega

theorem length_placeStrip (committed : Bool) (f : Frame) (q : List Frame) :
    (placeStrip committed f q).length = q.length + 1 := by
  unfold placeStrip
  split
  · simp only [List.length_append, List.length_cons, List.length_take, List.length_drop]
    omega
  · simp

theorem length_foldl_placeFrame (s : State) (fs q : List Frame) :
    (fs.foldl (fun q f => placeFrame s f q) q).length = fs.length + q.length := by
  induction fs generalizing q with
  | nil => simp
  | cons f fs ih =>
    rw [List.foldl_cons, ih, length_placeFrame, List.length_cons]
    omega

theorem length_filter_split (p : Frame → Bool) (q : List Frame) :
    (q.filter p).length + (q.filter fun f => !p f).length = q.length := by
  induction q with
  | nil => rfl
  | cons f q ih =>
    simp only [List.filter_cons]
    cases p f <;> simp <;> omega

theorem replaceFrames_keeps (number : Nat) (s : State) : Keeps s (replaceFrames number s) := by
  refine (keeps_setSch ⟨fun e => ?_, fun m => by cases m <;> exact Or.inl (Eq.refl _)⟩).trans (oweQueue_keeps _)
  have h (q : List Frame) :
      (q.filter (Frame.ofOrder number)).length + (q.filter fun f => !f.ofOrder number).length = q.length :=
    length_filter_split _ q
  dsimp only
  rw [length_foldl_placeFrame, List.length_append]
  split
  · have k := h (s.sch.queue.drop 1)
    rw [List.length_drop] at k
    rw [List.length_take]
    omega
  · have k := h s.sch.queue
    simp only [List.length_nil]
    omega

theorem magazineUnusable_keeps (m : Mag) (s : State) : Keeps s (magazineUnusable m s) := by
  have hc (u : State) :
      Keeps u (if u.sch.changeover = .pending m then u.setSch { u.sch with changeover := .clear } else u) := by
    split
    · exact keeps_sameQueue _ _ rfl rfl rfl
    · exact .rfl
  exact (owePass_keeps _).after ((hc _).after ((setMark_keeps (Or.inr (Or.inl rfl))).after (removeFrames_keeps _ _ s)))

/-! ### Web -/

theorem emptyMagazine_keeps (m : Mag) (cause : EmptyCause) (before : Nat) (s : State) :
    Keeps s (emptyMagazine m cause before s) := by
  unfold emptyMagazine
  dsimp only
  split
  · exact .rfl
  · exact (oweMagazine_keeps _).after ((magazineUnusable_keeps m _).after ((sendNotice_keeps rfl _ _).after
      (setMag_keeps ⟨Eq.refl _, Or.inr (Eq.refl _)⟩)))

theorem stopCutterFeed_keeps (s : State) : Keeps s (stopCutterFeed s) := keeps_setCut (Or.inr (Eq.refl _))

theorem stopFlush_keeps (s : State) : Keeps s (stopFlush s) :=
  keeps_setWeb (.aside rfl rfl rfl rfl rfl rfl rfl rfl rfl fun _ _ t => ⟨rfl, t⟩)

theorem disarmFlush_keeps (s : State) : Keeps s (disarmFlush s) :=
  keeps_setWeb (.aside rfl rfl rfl rfl rfl rfl rfl rfl rfl fun _ f _ => ⟨f, rfl⟩)

theorem setWebState_keeps (w : WebState) (s : State) (h : s.web.state ≠ .fault) (h' : w ≠ .clearing) :
    Keeps s (setWebState w s) := by
  have h1 : Keeps s (s.setWeb { s.web with state := w }) :=
    keeps_setWeb ⟨rfl, rfl, rfl, .rfl, .rfl, fun e => absurd e h, fun e => absurd e h',
      Or.inl rfl, Or.inl ⟨rfl, rfl⟩, fun _ f t => ⟨f, t⟩⟩
  have h2 (u : State) : Keeps u (if w = .ready then oweFlush (oweRun u) else disarmFlush u) := by
    split
    · exact (oweFlush_keeps _).after (oweRun_keeps u)
    · exact disarmFlush_keeps u
  have h3 (u : State) : Keeps u (if w.feeds then u else stopCutterFeed (stopFlush u)) := by
    split
    · exact .rfl
    · exact (stopCutterFeed_keeps _).after (stopFlush_keeps _)
  exact (h3 _).after ((h2 _).after h1)

/-- No flush starts during a run, so a flush keeps the part only without one. -/
theorem beginFlush_keeps (s : State) (h : s.web.run = none) (hv : s.web.state ≠ .fault) : Keeps s (beginFlush s) := by
  unfold beginFlush
  split
  · dsimp only
    split
    · exact keeps_setWeb (.aside rfl rfl rfl rfl rfl rfl rfl rfl rfl fun r =>
        r.elim (fun e => absurd h e) fun e => absurd e hv)
    · exact .rfl
  · exact .rfl

theorem flushArmTest_keeps (s : State) : Keeps s (flushArmTest s) := by
  unfold flushArmTest
  split
  · exact disarmFlush_keeps s
  · split
    · rename_i h
      exact keeps_setWeb (.aside rfl rfl rfl rfl rfl rfl rfl rfl rfl fun r => r.elim (fun e => absurd h.2.1 e)
        (fun e => absurd (h.1.symm.trans e) (by decide)))
    · exact .rfl

/-- A threading moves the coordinates, so it keeps the part only where the web map is empty or the web is CLEARING. -/
theorem startThreading_keeps (m : Mag) (s : State) (h : s.web.map = [] ∨ s.web.state = .clearing)
    (hn : s.web.threading = none) (hv : s.web.state ≠ .fault) : Keeps s (startThreading m s) := by
  have hp (u : State) : Keeps u (stopCutterFeed (disarmFlush (stopFlush u))) :=
    (stopCutterFeed_keeps _).after ((disarmFlush_keeps _).after (stopFlush_keeps u))
  have hs : (stopCutterFeed (disarmFlush (stopFlush s))).web.state = s.web.state := rfl
  have ht : (stopCutterFeed (disarmFlush (stopFlush s))).web.threading = s.web.threading := rfl
  have hm : (stopCutterFeed (disarmFlush (stopFlush s))).web.map = [] ∨
      (stopCutterFeed (disarmFlush (stopFlush s))).web.state = .clearing := by
    rw [(hp s).web.map, hs]
    exact h
  have hc (u : State) (k : u.web.map = [] ∨ u.web.state = .clearing) (n : u.web.threading = none)
      (v : u.web.state ≠ .fault) :
      Keeps u (u.setWeb { u.web with threading := some m, fIn := u.set.settings.pathFixed, c := 0 }) :=
    keeps_setWeb ⟨rfl, rfl, rfl, .rfl, .rfl, id, id, Or.inr ⟨n, v⟩, Or.inr ⟨k, by simp⟩, fun _ f t => ⟨f, t⟩⟩
  have hw (u : State) : Keeps u (match u.web.state with
      | .unthreaded => setWebState .threading u
      | .ready => setWebState .threading u
      | .threading => u
      | .changeover => u
      | .fault => u
      | .clearing => u) := by
    split <;> rename_i e <;>
      first | exact .rfl | exact setWebState_keeps _ _ (by rw [e]; decide) (by decide)
  exact (hw _).after ((drive_keeps _ _).after ((hc _ hm (ht.trans hn) (hs ▸ hv)).after (hp s)))

theorem threadOrEmpty_keeps (m : Mag) (s : State) (h : s.web.map = [] ∨ s.web.state = .clearing)
    (hn : s.web.threading = none) (hv : s.web.state ≠ .fault) : Keeps s (threadOrEmpty m s) := by
  unfold threadOrEmpty
  dsimp only
  split
  · exact startThreading_keeps m s h hn hv
  · exact emptyMagazine_keeps _ _ _ s

theorem dropAsk_keeps (s : State) : Keeps s (dropAsk s) := by
  have hw (u : State) : Keeps u (if u.web.feederCommanded then u
      else
        match u.web.state with
        | .changeover => setWebState .ready u
        | .clearing =>
          match u.web.active with
          | some m => if (u.web.mag m).state.loaded then threadOrEmpty m u else u
          | none => setWebState .unthreaded u
        | .unthreaded => u
        | .threading => u
        | .ready => u
        | .fault => u) := by
    split
    · exact .rfl
    · rename_i hn
      split <;> rename_i e
      · exact setWebState_keeps _ _ (by rw [e]; decide) (by decide)
      · split
        · split
          · exact threadOrEmpty_keeps _ _ (Or.inr e) (by simpa [Web.feederCommanded] using hn) (by rw [e]; decide)
          · exact .rfl
        · exact setWebState_keeps _ _ (by rw [e]; decide) (by decide)
      · exact .rfl
      · exact .rfl
      · exact .rfl
      · exact .rfl
  exact (hw _).after ((owePass_keeps _).after ((keeps_sameQueue _ _ (by rfl) (by rfl) (by rfl)).after
    (keeps_setWeb (.aside rfl rfl rfl rfl rfl rfl rfl rfl rfl fun _ f t => ⟨f, t⟩))))

theorem emptyOrDrop_keeps (m : Mag) (cause : EmptyCause) (before : Nat) (s : State) :
    Keeps s (emptyOrDrop m cause before s) := by
  have hd (u : State) : Keeps u (if u.web.ask = some m then dropAsk u else u) := by
    split
    · exact dropAsk_keeps u
    · exact .rfl
  exact (hd _).after (emptyMagazine_keeps m cause before s)

theorem commandThreading_keeps (m : Mag) (s : State) (h : s.web.map = [] ∨ s.web.state = .clearing)
    (hn : s.web.threading = none) (hv : s.web.state ≠ .fault) : Keeps s (commandThreading m s) := by
  unfold commandThreading
  dsimp only
  split
  · exact startThreading_keeps m s h hn hv
  · exact emptyOrDrop_keeps _ _ _ s

theorem changeoverThread_keeps (s : State) (hv : s.web.state ≠ .fault) : Keeps s (changeoverThread s) := by
  unfold changeoverThread
  split
  · split
    · rename_i h
      exact commandThreading_keeps _ _ (Or.inl (by simpa using h.1)) (by simpa [Web.feederCommanded] using h.2) hv
    · exact .rfl
  · exact .rfl

theorem enterChangeover_keeps (s : State) (h : s.web.state ≠ .fault) : Keeps s (enterChangeover s) := by
  have hf (u : State) (v : u.web.state ≠ .fault) :
      Keeps u (if u.web.run = none ∧ flushNeeded u then beginFlush u else u) := by
    split
    · rename_i h
      exact beginFlush_keeps u h.1 v
    · exact .rfl
  have hs (u : State) : (if u.web.run = none ∧ flushNeeded u then beginFlush u else u).web.state = u.web.state := by
    unfold beginFlush
    dsimp only
    repeat' first | exact Eq.refl _ | split
  have v : (setWebState .changeover s).web.state ≠ .fault := by
    unfold setWebState
    simp [WebState.feeds, disarmFlush]
  exact (changeoverThread_keeps _ (by rw [hs]; exact v)).after
    ((hf _ v).after (setWebState_keeps .changeover s h (by decide)))

theorem takeAsk_keeps (t : Mag) (s : State) : Keeps s (takeAsk t s) := by
  have hw (u : State) : Keeps u (match u.web.state with
      | .ready => enterChangeover u
      | .clearing => if u.web.feederCommanded then u else commandThreading t u
      | .unthreaded => u
      | .threading => u
      | .changeover => u
      | .fault => u) := by
    split <;> rename_i e
    · exact enterChangeover_keeps u (by rw [e]; decide)
    · split
      · exact .rfl
      · rename_i hn
        exact commandThreading_keeps _ _ (Or.inr e) (by simpa [Web.feederCommanded] using hn) (by rw [e]; decide)
    · exact .rfl
    · exact .rfl
    · exact .rfl
    · exact .rfl
  exact (hw _).after (keeps_setWeb (.aside rfl rfl rfl rfl rfl rfl rfl rfl rfl fun _ f t => ⟨f, t⟩))

/-! ### Selection -/

/-- A FREE bin assigned to an order. -/
theorem updBin_keeps (b : Nat) (f : OrderBin → OrderBin) {n : Nat} (h : ∀ x, f x = ⟨.assigned, some n, 0, x.sensor⟩)
    (s : State) (hf : ∀ x, s.srt.bins[b]? = some x → x.state = .free) : Keeps s (updBin b f s) := by
  refine keeps_setSrt { SrtKeeps.rfl (x := s.srt) with sensors := ?_, taken := fun j r e hr => ?_, free := fun j r e _ => ?_ }
  · apply List.ext_getElem?
    intro j
    simp only [List.getElem?_map, List.getElem?_modify]
    cases s.srt.bins[j]? <;> simp
    split <;> simp [h]
  · simp only [List.getElem?_modify]
    by_cases hj : b = j
    · subst hj
      exact absurd (hf r e) hr
    · simp [hj, e]
  · simp only [List.getElem?_modify]
    by_cases hj : b = j
    · exact Or.inr ⟨n, by simp [hj, e, h]⟩
    · exact Or.inl (by simp [hj, e])

theorem assignBin_keeps (b slot number : Nat) (s : State) (hf : ∀ x, s.srt.bins[b]? = some x → x.state = .free) :
    Keeps s (assignBin b slot number s) := by
  have ho (u : State) : Keeps u (match u.orderAt slot number with
      | some o => u.setOrder slot (some { o with bins := o.bins ++ [b] })
      | none => u) := by
    split
    · rename_i o e
      exact setOrder_keeps (orderAt_eq_some e).1 rfl
    · exact .rfl
  exact (ho _).after (updBin_keeps _ _ (by intro _; rfl) s hf)

theorem assignBin_sch (b slot number : Nat) (s : State) : (assignBin b slot number s).sch = s.sch := by
  unfold assignBin
  dsimp only
  split <;> rfl

/-- The bin an order is given is FREE (R131). -/
theorem freeBinFor_free {s : State} {o : Order} {b : Nat} (h : freeBinFor s o = some b) (x : OrderBin)
    (e : s.srt.bins[b]? = some x) : x.state = .free := by
  have k := List.find?_some h
  rw [e] at k
  simpa using k

/-- The state with the bin of a new frame's order reserved (R33 step 1). -/
theorem reserveBin_keeps (c : Candidate) (u : State) :
    Keeps u (if c.order.bins.isEmpty then
      match freeBinFor u c.order with
      | some b => assignBin b c.slot c.order.number u
      | none => u
    else u) ∧ (if c.order.bins.isEmpty then
      match freeBinFor u c.order with
      | some b => assignBin b c.slot c.order.number u
      | none => u
    else u).sch = u.sch := by
  split
  · split
    · rename_i b e
      exact ⟨assignBin_keeps _ _ _ u (freeBinFor_free e), assignBin_sch _ _ _ u⟩
    · exact ⟨.rfl, rfl⟩
  · exact ⟨.rfl, rfl⟩

theorem createPrint_keeps (c : Candidate) (m : Mag) (s : State) (room : s.sch.hasRoom = true) :
    Keeps s (createPrint c m s) := by
  obtain ⟨hb, hq⟩ := reserveBin_keeps c s
  refine (oweQueue_keeps _).after ((reportCreated_keeps _ _).after ((keeps_setSch ⟨fun _ => ?_, fun m => by cases m <;> exact Or.inl (Eq.refl _)⟩).after hb))
  dsimp only
  rw [length_placeFrame]
  have e := congrArg (fun x => x.queue.length) hq
  have r : s.sch.queue.length < 16 := of_decide_eq_true room
  exact Nat.lt_of_le_of_lt (Nat.le_of_eq e) r

theorem createStrip_keeps (m : Mag) (s : State) (room : s.sch.hasRoom = true) (h : s.sch.mark m = .awaiting) :
    Keeps s (createStrip m s) := by
  refine (oweQueue_keeps _).after ((setMark_keeps (Or.inr (Or.inr ⟨?_, _, rfl⟩))).after
    (keeps_setSch ⟨fun _ => ?_, fun m => by cases m <;> exact Or.inl (Eq.refl _)⟩))
  · cases m <;> exact h
  dsimp only
  rw [length_placeStrip]
  exact of_decide_eq_true room

theorem paperTest_keeps (c : Candidate) (s : State) : Keeps s (paperTest c s) := by
  have hn (b : Bool) (x : List Byte) (u : State) : Keeps u (if b then sendNotice .paperNeeded x u else u) := by
    split
    · exact sendNotice_keeps rfl _ _
    · exact .rfl
  unfold paperTest
  dsimp only
  split
  · exact .rfl
  · exact (hn _ _ _).after (applyReport_keeps _ _ (by intro _; rfl) s)

theorem paperStage_keeps (s : State) : Keeps s (paperStage s) := by
  unfold paperStage
  generalize candidates 0 s.ort.slots = cs
  induction cs generalizing s with
  | nil => exact .rfl
  | cons c cs ih => exact (paperTest_keeps c s).trans (ih _)

theorem frameStage_keeps (fuel : Nat) (s : State) : Keeps s (frameStage fuel s) := by
  induction fuel generalizing s with
  | zero => exact .rfl
  | succ n ih =>
    unfold frameStage
    split
    · rename_i room
      have k (c : Candidate) (m : Mag) (u : State) (hu : u.sch.queue = s.sch.queue) : Keeps u (createPrint c m u) :=
        createPrint_keeps c m u (by unfold Sch.hasRoom at *; rw [hu]; exact room)
      dsimp only
      split
      · exact (ih _).after ((k _ _ _ (by rfl)).after (keeps_sameQueue s _ (by rfl) (by rfl) (by rfl)))
      · exact keeps_sameQueue s _ (by rfl) (by rfl) (by rfl)
    · exact .rfl

theorem selectionPass_keeps (s : State) : Keeps s (selectionPass s) := by
  have hs (u : State) : Keeps u (match stripDue u with
      | some m => createStrip m u
      | none => u) := by
    split
    · rename_i m e
      unfold stripDue at e
      split at e
      · split at e
        · rename_i h
          injection e with e
          exact createStrip_keeps _ u h.2.2 (e ▸ h.1)
        · cases e
      · cases e
    · exact .rfl
  exact (oweAsk_keeps _).after ((frameStage_keeps 16 _).after ((hs _).after (paperStage_keeps s)))

theorem askTest_keeps (s : State) : Keeps s (askTest s) := by
  unfold askTest
  split
  · exact (takeAsk_keeps _ _).after (keeps_sameQueue s _ rfl rfl rfl)
  · exact .rfl

theorem runTest_keeps (s : State) : Keeps s (runTest s) := by
  unfold runTest
  split
  · exact emptyOrDrop_keeps _ _ _ s
  · exact .rfl

/-! ### The window -/

theorem startImageTx_keeps (s : State) : Keeps s (startImageTx s) := by
  unfold startImageTx
  split
  · exact (drive_keeps _ _).after (keeps_setLnk { LnkKeeps.rfl with })
  · exact .rfl

/-- A tag that holds no quarantine replaced by an OUTSTANDING one. -/
theorem IfuKeeps.setTag {x : Ifu} {t : Nat} {y : FetchTag} (h : ∀ z, x.tags[t]? = some z → y.held = z.held) :
    IfuKeeps x { x with tags := x.tags.set t y } := by
  refine { IfuKeeps.rfl with tags := ?_ }
  apply List.ext_getElem?
  intro j
  simp only [List.getElem?_map, List.getElem?_set]
  split
  · rename_i hj
    subst hj
    split
    · rename_i hl
      have e := List.getElem?_eq_getElem hl
      rw [e]
      simp [h _ e]
    · rename_i hl
      rw [List.getElem?_eq_none (by omega)]
  · rfl

theorem sendFetch_keeps (tag slot : Nat) (x : Supply) (l : Line) (row : Nat) (s : State)
    (h : ∀ z, s.ifu.tags[tag]? = some z → z.held = none) : Keeps s (sendFetch tag slot x l row s) := by
  have ht (info : FetchInfo) :
      Keeps s (s.setIfu { s.ifu with tags := s.ifu.tags.set tag (.outstanding info (some slot) none) }) :=
    keeps_setIfu (IfuKeeps.setTag fun z e => by rw [h z e]; rfl)
  refine (startImageTx_keeps _).after (Keeps.after (keeps_setLnk ?_) (ht _))
  exact { LnkKeeps.rfl with }

theorem commitFor_keeps (x : Supply) (s : State) : Keeps s (commitFor x s) := by
  unfold commitFor
  split
  · exact keeps_sameQueue _ _ rfl rfl rfl
  · exact .rfl

/-- One slot replaced. -/
theorem keeps_setSlots (s : State) (i : Nat) (x : LineSlot) :
    Keeps s (s.setIfu { s.ifu with slots := s.ifu.slots.set i x }) :=
  keeps_setIfu ⟨rfl, List.length_set, rfl, rfl⟩

theorem serveNeed_keeps {tag : Nat} {x : Supply} {n : Need} {l : Line} {s t : State}
    (h : ∀ z, s.ifu.tags[tag]? = some z → z.held = none) (e : serveNeed tag x n l s = some t) : Keeps s t := by
  unfold serveNeed at e
  dsimp only at e
  split at e
  · split at e
    · injection e with e
      subst e
      exact (sendFetch_keeps _ _ _ _ _ _ (by exact h)).after (keeps_setSlots s _ _)
    · cases e
  · split at e
    · injection e with e
      subst e
      exact (commitFor_keeps _ _).after ((sendFetch_keeps _ _ _ _ _ _ (by exact h)).after (keeps_setSlots s _ _))
    · cases e

theorem issueOne_keeps {s t : State} (e : issueOne s = some t) : Keeps s t := by
  unfold issueOne at e
  split at e
  · rename_i tag ht
    split at e
    · split at e
      · refine serveNeed_keeps ?_ e
        intro z hz
        obtain ⟨hlt, hfree, _⟩ := List.findIdx?_eq_some_iff_getElem.mp ht
        rw [List.getElem?_eq_getElem hlt] at hz
        cases hz
        revert hfree
        cases s.ifu.tags[tag] <;> simp [FetchTag.isFree, FetchTag.held]
      · cases e
    · cases e
  · cases e

theorem issueFetches_keeps (fuel : Nat) (s : State) : Keeps s (issueFetches fuel s) := by
  induction fuel generalizing s with
  | zero => exact .rfl
  | succ n ih =>
    unfold issueFetches
    split
    · rename_i t e
      exact (issueOne_keeps e).trans (ih t)
    · exact .rfl

theorem commitStrip_keeps (s : State) : Keeps s (commitStrip s) := by
  unfold commitStrip
  split
  · split
    · exact (oweRun_keeps _).after ((keeps_setIfu (by exact ⟨rfl, rfl, rfl, rfl⟩)).after (keeps_sameQueue s _ rfl rfl rfl))
    · exact .rfl
  · exact .rfl

theorem ifuService_keeps (s : State) : Keeps s (ifuService s) :=
  (commitStrip_keeps s).trans (issueFetches_keeps 8 _)

/-! ### The end of an event -/

theorem settleOne_keeps {s t : State} (e : settleOne s = some t) : Keeps s t := by
  unfold settleOne at e
  split at e
  · injection e with e; subst e; exact (selectionPass_keeps _).after (keeps_setDue s _)
  · split at e
    · injection e with e; subst e; exact (askTest_keeps _).after (keeps_setDue s _)
    · split at e
      · injection e with e; subst e; exact (runTest_keeps _).after (keeps_setDue s _)
      · split at e
        · injection e with e; subst e; exact (ifuService_keeps _).after (keeps_setDue s _)
        · split at e
          · injection e with e; subst e; exact (flushArmTest_keeps _).after (keeps_setDue s _)
          · cases e

theorem settle_keeps (fuel : Nat) (s : State) : Keeps s (settle fuel s) := by
  induction fuel generalizing s with
  | zero => exact .rfl
  | succ n ih =>
    unfold settle
    split
    · rename_i t e
      exact (settleOne_keeps e).trans (ih t)
    · exact .rfl

/-- The end of an event keeps everything but SCH's queue, the scheduling counters and bins, new fetches, threadings and
flushes, a magazine's becoming EMPTY, the ports, the notices and the idle timer. -/
theorem quiesce_keeps (s : State) : Keeps s (quiesce s) := by
  refine Keeps.after (keeps_setLnk ?_) ((keeps_setDue _ Due.none).after (settle_keeps settleFuel s))
  exact { LnkKeeps.rfl with }

/-- With no test due the end of an event only sees to the idle timer. -/
theorem quiesce_of_nothing_due (s : State) (h : s.due = Due.none) : quiesce s = idleService s := by
  have e : settle settleFuel s = s := by
    show settle (63 + 1) s = s
    unfold settle settleOne
    simp [h, Due.none]
  have d : s.setDue Due.none = s := by
    unfold State.setDue
    rw [← h]
  rw [quiesce, e, d]

end Sys2Proof.Machine
end

