-- ==== Sys2Proof/Laws/Calm.lean ====
section
/-!
SUPPORT. What every event and every owner of a request leaves as it was, apart from the requests that write settings and
tables: `Calm s t` is one relation, and each operation has one lemma that carries it over the operation.
-/
namespace Sys2Proof.Machine

/-- LNK's frames, framers and counts stay, and the notice queue stays within its 32 entries. -/
structure LnkCalm (x y : Lnk) : Prop where
  stationRx      : y.stationRx = x.stationRx
  imageRx        : y.imageRx = x.imageRx
  waiting        : y.waiting = x.waiting
  replies        : y.replies = x.replies
  tx             : y.tx = x.tx
  resetPending   : y.resetPending = x.resetPending
  stationCrc     : y.stationCrc = x.stationCrc
  stationFraming : y.stationFraming = x.stationFraming
  imageCrc       : y.imageCrc = x.imageCrc
  imageFraming   : y.imageFraming = x.imageFraming
  rxOverruns     : y.rxOverruns = x.rxOverruns
  notices        : x.notices.length ≤ 32 → y.notices.length ≤ 32
  appended       : x.notices <+: y.notices

/-- Settings, tables, LNK's frames and the sizes of the lists stay. -/
structure Calm (s t : State) : Prop where
  lnk      : LnkCalm s.lnk t.lnk
  orders   : t.ort.slots.length = s.ort.slots.length
  queue    : s.sch.queue.length ≤ 16 → t.sch.queue.length ≤ 16
  lines    : t.ifu.slots.length = s.ifu.slots.length
  tags     : t.ifu.tags.length = s.ifu.tags.length
  sizes    : t.exu.sizes = s.exu.sizes
  profiles : t.exu.profiles = s.exu.profiles
  ladder   : t.exu.ladder = s.exu.ladder
  map      : s.web.map.length ≤ 32 → t.web.map.length ≤ 32
  bins     : t.srt.bins.length = s.srt.bins.length
  windows  : t.srt.windows = s.srt.windows
  prc      : t.prc = s.prc
  set      : t.set = s.set
  free     : t.free = s.free
  pending  : t.pending = s.pending

theorem LnkCalm.rfl {x : Lnk} : LnkCalm x x := by constructor <;> first | exact List.prefix_refl _ | simp

theorem LnkCalm.trans {x y z : Lnk} (h : LnkCalm x y) (k : LnkCalm y z) : LnkCalm x z :=
  ⟨k.stationRx.trans h.stationRx, k.imageRx.trans h.imageRx, k.waiting.trans h.waiting, k.replies.trans h.replies,
    k.tx.trans h.tx, k.resetPending.trans h.resetPending, k.stationCrc.trans h.stationCrc,
    k.stationFraming.trans h.stationFraming, k.imageCrc.trans h.imageCrc, k.imageFraming.trans h.imageFraming,
    k.rxOverruns.trans h.rxOverruns, fun e => k.notices (h.notices e), h.appended.trans k.appended⟩

theorem Calm.rfl {s : State} : Calm s s := by constructor <;> first | exact LnkCalm.rfl | exact id | exact Eq.refl _

theorem Calm.trans {s t u : State} (h : Calm s t) (k : Calm t u) : Calm s u :=
  ⟨h.lnk.trans k.lnk, k.orders.trans h.orders, fun e => k.queue (h.queue e), k.lines.trans h.lines,
    k.tags.trans h.tags, k.sizes.trans h.sizes, k.profiles.trans h.profiles, k.ladder.trans h.ladder,
    fun e => k.map (h.map e), k.bins.trans h.bins, k.windows.trans h.windows, k.prc.trans h.prc, k.set.trans h.set,
    k.free.trans h.free, k.pending.trans h.pending⟩

theorem LnkKeeps.calm {x y : Lnk} (k : LnkKeeps x y) : LnkCalm x y :=
  ⟨k.stationRx, k.imageRx, k.waiting, k.replies, k.tx, k.resetPending, k.stationCrc, k.stationFraming, k.imageCrc,
    k.imageFraming, k.rxOverruns, k.notices, k.raised.imp fun _ e => e.1.symm⟩

/-- What the tests at the end of an event keep is enough. -/
theorem Keeps.calm {s t : State} (k : Keeps s t) : Calm s t where
  lnk := k.lnk.calm
  orders := by simpa using congrArg List.length k.ort.slots
  queue := k.sch.room
  lines := k.ifu.slots
  tags := by simpa using congrArg List.length k.ifu.tags
  sizes := by rw [k.exu]
  profiles := by rw [k.exu]
  ladder := by rw [k.exu]
  map := fun e => by rw [k.web.map]; exact e
  bins := by simpa using congrArg List.length k.srt.sensors
  windows := k.srt.windows
  prc := k.prc
  set := k.set
  free := k.free
  pending := k.pending

/-- An operation that keeps the part carries the relation. -/
theorem Calm.keeps {s u v : State} (h : Calm s u) (k : Keeps u v) : Calm s v := h.trans k.calm

/-! ### Block updates -/

theorem setLnk_calm {s u : State} {x : Lnk} (h : Calm s u) (e : LnkCalm u.lnk x) : Calm s (u.setLnk x) :=
  h.trans { Calm.rfl with lnk := e }

theorem setOrt_calm {s u : State} {x : Ort} (h : Calm s u) (e : x.slots.length = u.ort.slots.length) :
    Calm s (u.setOrt x) := h.trans { Calm.rfl with orders := e }

theorem setSch_calm {s u : State} {x : Sch} (h : Calm s u) (e : x.queue.length ≤ u.sch.queue.length) :
    Calm s (u.setSch x) := h.trans { Calm.rfl with queue := fun k => Nat.le_trans e k }

theorem setIfu_calm {s u : State} {x : Ifu} (h : Calm s u) (e : x.slots.length = u.ifu.slots.length)
    (f : x.tags.length = u.ifu.tags.length) : Calm s (u.setIfu x) := h.trans { Calm.rfl with lines := e, tags := f }

theorem setWeb_calm {s u : State} {x : Web} (h : Calm s u) (e : x.map.length ≤ u.web.map.length) :
    Calm s (u.setWeb x) := h.trans { Calm.rfl with map := fun k => Nat.le_trans e k }

theorem setCut_calm {s u : State} {x : Cut} (h : Calm s u) : Calm s (u.setCut x) := h.trans { Calm.rfl with }

theorem setSrt_calm {s u : State} {x : Srt} (h : Calm s u) (e : x.bins.length = u.srt.bins.length)
    (f : x.windows = u.srt.windows) : Calm s (u.setSrt x) := h.trans { Calm.rfl with bins := e, windows := f }

theorem setDue_calm {s u : State} {x : Due} (h : Calm s u) : Calm s (u.setDue x) := h.trans { Calm.rfl with }

theorem setPorts_calm {s u : State} {x : List PortOut} (h : Calm s u) : Calm s (u.setPorts x) :=
  h.trans { Calm.rfl with }

theorem setHead_calm {s u : State} (x : HeadState) (h : Calm s u) : Calm s (setHead x u) := h.trans { Calm.rfl with }

theorem setMag_calm {s u : State} (m : Mag) (r : MagRecord) (h : Calm s u) : Calm s (u.setMag m r) := by
  cases m <;> exact setWeb_calm h (Nat.le_refl _)

theorem setOrder_calm {s u : State} (slot : Nat) (o : Option Order) (h : Calm s u) : Calm s (u.setOrder slot o) :=
  setOrt_calm h List.length_set

theorem updEntry_calm {s u : State} (n : Nat) (f : WebEntry → WebEntry) (h : Calm s u) : Calm s (updEntry n f u) :=
  setWeb_calm h (by simp)

theorem updBin_calm {s u : State} (b : Nat) (f : OrderBin → OrderBin) (h : Calm s u) : Calm s (updBin b f u) :=
  setSrt_calm h (by simp) (Eq.refl _)

theorem setHolding_calm {s u : State} (b : Nat) (x : HoldBin) (h : Calm s u) :
    Calm s (u.setSrt (u.srt.setHolding b x)) := by
  refine setSrt_calm h ?_ ?_ <;> unfold Srt.setHolding <;> split <;> exact Eq.refl _

theorem sendNotice_calm {s u : State} (k : NoticeKind) (body : List Byte) (h : Calm s u) :
    Calm s (sendNotice k body u) := by
  unfold sendNotice
  dsimp only
  split
  · exact h
  · split
    · refine setLnk_calm h { LnkCalm.rfl with notices := fun _ => ?_, appended := List.prefix_append _ _ }
      simp
      omega
    · exact setLnk_calm h { LnkCalm.rfl with }

/-! ### Operations that keep the part -/

theorem drive_calm {s u : State} (p : PortOut) (h : Calm s u) : Calm s (drive p u) := h.keeps (drive_keeps _ u)

theorem owePass_calm {s u : State} (h : Calm s u) : Calm s (owePass u) := h.keeps (owePass_keeps u)

theorem oweRun_calm {s u : State} (h : Calm s u) : Calm s (oweRun u) := h.keeps (oweRun_keeps u)

theorem oweWindow_calm {s u : State} (h : Calm s u) : Calm s (oweWindow u) := h.keeps (oweWindow_keeps u)

theorem oweFlush_calm {s u : State} (h : Calm s u) : Calm s (oweFlush u) := h.keeps (oweFlush_keeps u)

theorem oweLeave_calm {s u : State} (h : Calm s u) : Calm s (oweLeave u) := h.keeps (oweLeave_keeps u)

theorem oweMagazine_calm {s u : State} (h : Calm s u) : Calm s (oweMagazine u) := h.keeps (oweMagazine_keeps u)

theorem stateCheck_calm {s u : State} (slot number : Nat) (h : Calm s u) : Calm s (stateCheck slot number u) := h.keeps (stateCheck_keeps _ _ u)

theorem reportReturned_calm {s u : State} (r : PrintRef) (h : Calm s u) : Calm s (reportReturned r u) := h.keeps (reportReturned_keeps _ u)

theorem reportCreated_calm {s u : State} (r : PrintRef) (h : Calm s u) : Calm s (reportCreated r u) := h.keeps (reportCreated_keeps _ u)

theorem releaseFrame_calm {s u : State} (n : Nat) (h : Calm s u) : Calm s (releaseFrame n u) := h.keeps (releaseFrame_keeps _ u)

theorem removeFrames_calm {s u : State} (p : Frame → Bool) (report : Bool) (h : Calm s u) : Calm s (removeFrames p report u) := h.keeps (removeFrames_keeps _ _ u)

theorem replaceFrames_calm {s u : State} (number : Nat) (h : Calm s u) : Calm s (replaceFrames number u) := h.keeps (replaceFrames_keeps _ u)

theorem magazineUnusable_calm {s u : State} (m : Mag) (h : Calm s u) : Calm s (magazineUnusable m u) := h.keeps (magazineUnusable_keeps _ u)

theorem emptyMagazine_calm {s u : State} (m : Mag) (cause : EmptyCause) (before : Nat) (h : Calm s u) : Calm s (emptyMagazine m cause before u) := h.keeps (emptyMagazine_keeps _ _ _ u)

theorem stopCutterFeed_calm {s u : State} (h : Calm s u) : Calm s (stopCutterFeed u) := h.keeps (stopCutterFeed_keeps u)

theorem stopFlush_calm {s u : State} (h : Calm s u) : Calm s (stopFlush u) := h.keeps (stopFlush_keeps u)

theorem disarmFlush_calm {s u : State} (h : Calm s u) : Calm s (disarmFlush u) := h.keeps (disarmFlush_keeps u)

theorem emptyOrDrop_calm {s u : State} (m : Mag) (cause : EmptyCause) (before : Nat) (h : Calm s u) : Calm s (emptyOrDrop m cause before u) := h.keeps (emptyOrDrop_keeps _ _ _ u)

theorem startImageTx_calm {s u : State} (h : Calm s u) : Calm s (startImageTx u) := h.keeps (startImageTx_keeps u)

theorem quiesce_calm {s u : State} (h : Calm s u) : Calm s (quiesce u) := h.keeps (quiesce_keeps u)

theorem setMark_calm {s u : State} (m : Mag) (k : StripMark) (h : Calm s u) : Calm s (u.setMark m k) :=
  setSch_calm h (by cases m <;> exact Nat.le_refl _)

/-! ### Orders and losses -/

theorem applyReport_calm {s u : State} (r : PrintRef) (f : Line → Line) (h : Calm s u) :
    Calm s (applyReport r f u) := by
  unfold applyReport
  repeat' first | with_reducible exact h | with_reducible apply setOrder_calm | split

theorem reportDelivered_calm {s u : State} (r : PrintRef) (h : Calm s u) : Calm s (reportDelivered r u) := by
  unfold reportDelivered
  repeat'
    first
    | with_reducible exact h | with_reducible apply stateCheck_calm | with_reducible apply applyReport_calm | split

theorem modOrder_calm {s u : State} (number : Nat) (f : Order → Order) (h : Calm s u) :
    Calm s (modOrder number f u) := by
  unfold modOrder
  repeat' first | with_reducible exact h | with_reducible apply setOrder_calm | split

theorem abandonSupply_calm {s u : State} (n : Nat) (h : Calm s u) : Calm s (abandonSupply n u) := by
  unfold abandonSupply
  dsimp only
  repeat'
    first
    | with_reducible exact h | with_reducible apply oweWindow_calm | with_reducible apply releaseFrame_calm
    | with_reducible apply setIfu_calm | split | exact Nat.le_refl _ | exact Eq.refl _ | (simp; done)

theorem failLine_calm {s u : State} (r : PrintRef) (cause : FailCause) (h : Calm s u) :
    Calm s (failLine r cause u) := by
  unfold failLine
  dsimp only
  repeat'
    first
    | with_reducible exact h | with_reducible apply owePass_calm | with_reducible apply stateCheck_calm
    | with_reducible apply setOrder_calm | with_reducible apply removeFrames_calm
    | with_reducible apply sendNotice_calm | with_reducible apply applyReport_calm | split

theorem accountLoss_calm {s u : State} (rep : LossReport) (h : Calm s u) : Calm s (accountLoss rep u) := by
  unfold accountLoss
  dsimp only
  repeat'
    first
    | with_reducible exact h | with_reducible apply failLine_calm | with_reducible apply owePass_calm
    | with_reducible apply stateCheck_calm | with_reducible apply sendNotice_calm | with_reducible apply setOrder_calm
    | split

theorem loseOnWeb_calm {s u : State} (n : Nat) (cause : LossCause) (line : Option Nat) (h : Calm s u) :
    Calm s (loseOnWeb n cause line u) := by
  unfold loseOnWeb
  dsimp only
  repeat'
    first
    | with_reducible exact h | with_reducible apply accountLoss_calm | with_reducible apply updEntry_calm | split

theorem spoilOnWeb_calm {s u : State} (n : Nat) (cause : LossCause) (line : Option Nat) (h : Calm s u) :
    Calm s (spoilOnWeb n cause line u) := by
  unfold spoilOnWeb
  repeat'
    first
    | with_reducible exact h | with_reducible apply loseOnWeb_calm | with_reducible apply updEntry_calm | split

/-! ### Exposure -/

theorem clearMark_calm {s u : State} (m : Mag) (frame : Nat) (h : Calm s u) : Calm s (clearMark m frame u) := by
  unfold clearMark
  repeat' first | with_reducible exact h | with_reducible apply setMark_calm | split

theorem stripUnread_calm {s u : State} (m : Mag) (frame : Nat) (h : Calm s u) : Calm s (stripUnread m frame u) := by
  unfold stripUnread
  repeat'
    first
    | with_reducible exact h | with_reducible apply clearMark_calm | with_reducible apply sendNotice_calm | split

theorem stripRead_calm {s u : State} (m : Mag) (frame : Nat) (reading : RGB Nat) (h : Calm s u) :
    Calm s (stripRead m frame reading u) := by
  unfold stripRead
  dsimp only
  repeat'
    first
    | with_reducible exact h | with_reducible apply clearMark_calm | with_reducible apply sendNotice_calm
    | with_reducible apply oweMagazine_calm | with_reducible apply setMag_calm | split

theorem warmUp_calm {s u : State} (h : Calm s u) : Calm s (warmUp u) := by
  unfold warmUp
  repeat' first | with_reducible exact h | with_reducible apply drive_calm | with_reducible apply setHead_calm | split

theorem headRunOver_calm {s u : State} (h : Calm s u) : Calm s (headRunOver u) := by
  unfold headRunOver
  repeat' first | with_reducible exact h | with_reducible apply setHead_calm | split

theorem awake_calm {s u : State} (h : Calm s u) : Calm s (awake u) := by
  unfold awake
  split
  · exact sendNotice_calm _ _ (setLnk_calm h { LnkCalm.rfl with })
  · exact h

/-! ### Web -/

theorem lowMarkTest_calm {s u : State} (m : Mag) (h : Calm s u) : Calm s (lowMarkTest m u) := by
  unfold lowMarkTest
  dsimp only
  repeat'
    first
    | with_reducible exact h | with_reducible apply sendNotice_calm | with_reducible apply setMag_calm | split

theorem setRemaining_calm {s u : State} (m : Mag) (n : Nat) (h : Calm s u) : Calm s (setRemaining m n u) := by
  unfold setRemaining
  repeat'
    first
    | with_reducible exact h | with_reducible apply lowMarkTest_calm | with_reducible apply setMag_calm | split

theorem feedOne_calm {s u : State} (h : Calm s u) : Calm s (feedOne u) := by
  unfold feedOne
  dsimp only
  repeat'
    first
    | with_reducible exact h | with_reducible apply setRemaining_calm | with_reducible apply setWeb_calm | split
    | exact Nat.le_refl _ | exact Eq.refl _ | (simp; done)

theorem setWebState_calm {s u : State} (w : WebState) (h : Calm s u) : Calm s (setWebState w u) := by
  unfold setWebState
  dsimp only
  repeat'
    first
    | with_reducible exact h | with_reducible apply stopCutterFeed_calm | with_reducible apply stopFlush_calm
    | with_reducible apply oweFlush_calm | with_reducible apply oweRun_calm | with_reducible apply disarmFlush_calm
    | with_reducible apply setWeb_calm | split | exact Nat.le_refl _ | exact Eq.refl _ | (simp; done)

theorem beginFlush_calm {s u : State} (h : Calm s u) : Calm s (beginFlush u) := by
  unfold beginFlush
  dsimp only
  repeat'
    first
    | with_reducible exact h | with_reducible apply drive_calm | with_reducible apply setWeb_calm | split
    | exact Nat.le_refl _ | exact Eq.refl _ | (simp; done)

theorem startThreading_calm {s u : State} (m : Mag) (h : Calm s u) : Calm s (startThreading m u) := by
  unfold startThreading
  dsimp only
  repeat'
    first
    | with_reducible exact h | with_reducible apply setWebState_calm | with_reducible apply drive_calm
    | with_reducible apply setWeb_calm | with_reducible apply stopCutterFeed_calm
    | with_reducible apply disarmFlush_calm | with_reducible apply stopFlush_calm | split | exact Nat.le_refl _
    | exact Eq.refl _ | (simp; done)

theorem commandThreading_calm {s u : State} (m : Mag) (h : Calm s u) : Calm s (commandThreading m u) := by
  unfold commandThreading
  dsimp only
  repeat'
    first
    | with_reducible exact h | with_reducible apply startThreading_calm | with_reducible apply emptyOrDrop_calm
    | split

theorem changeoverThread_calm {s u : State} (h : Calm s u) : Calm s (changeoverThread u) := by
  unfold changeoverThread
  repeat' first | with_reducible exact h | with_reducible apply commandThreading_calm | split

theorem enterChangeover_calm {s u : State} (h : Calm s u) : Calm s (enterChangeover u) := by
  unfold enterChangeover
  dsimp only
  repeat'
    first
    | with_reducible exact h | with_reducible apply changeoverThread_calm | with_reducible apply beginFlush_calm
    | with_reducible apply setWebState_calm | split

theorem endRunEarly_calm {s u : State} (h : Calm s u) : Calm s (endRunEarly u) := by
  unfold endRunEarly
  dsimp only
  repeat'
    first
    | with_reducible exact h | with_reducible apply abandonSupply_calm | with_reducible apply drive_calm
    | with_reducible apply headRunOver_calm | with_reducible apply setWeb_calm | split | exact Nat.le_refl _
    | exact Eq.refl _ | (simp; done)

/-! ### Cutter -/

theorem updGap_calm {s u : State} (f : GapRecord → GapRecord) (h : Calm s u) :
    Calm s (updGap f u) := by
  unfold updGap
  repeat'
    first
    | with_reducible exact h | with_reducible apply setCut_calm | split | exact Nat.le_refl _ | exact Eq.refl _
    | (simp; done)

theorem beginSearch_calm {s u : State} (h : Calm s u) : Calm s (beginSearch u) := by
  unfold beginSearch
  repeat' first | with_reducible exact h | with_reducible apply updGap_calm | split

theorem dropCarried_calm {s u : State} (h : Calm s u) : Calm s (dropCarried u) := by
  unfold dropCarried
  dsimp only
  repeat'
    first
    | with_reducible exact h | with_reducible apply beginSearch_calm | with_reducible apply setCut_calm | split
    | exact Nat.le_refl _ | exact Eq.refl _ | (simp; done)

theorem flagUnregistered_calm {s u : State} (frame : Nat) (h : Calm s u) : Calm s (flagUnregistered frame u) := by
  unfold flagUnregistered
  repeat' first | with_reducible exact h | with_reducible apply updEntry_calm | split

theorem commandCut_calm {s u : State} (h : Calm s u) : Calm s (commandCut u) := by
  unfold commandCut
  dsimp only
  repeat'
    first
    | with_reducible exact h | with_reducible apply flagUnregistered_calm | with_reducible apply drive_calm
    | with_reducible apply setCut_calm | split | exact Nat.le_refl _ | exact Eq.refl _ | (simp; done)

theorem cutDue_calm {s u : State} (h : Calm s u) : Calm s (cutDue u) := by
  unfold cutDue
  repeat'
    first
    | with_reducible exact h | with_reducible apply commandCut_calm | with_reducible apply setCut_calm | split
    | exact Nat.le_refl _ | exact Eq.refl _ | (simp; done)

theorem checkDue_calm {s u : State} (h : Calm s u) : Calm s (checkDue u) := by
  unfold checkDue
  repeat' first | with_reducible exact h | with_reducible apply cutDue_calm | split

theorem planCut_calm {s u : State} (kind : CutKind) (e : WebEntry) (h : Calm s u) : Calm s (planCut kind e u) := by
  unfold planCut
  dsimp only
  repeat'
    first
    | with_reducible exact h | with_reducible apply checkDue_calm | with_reducible apply setCut_calm | split
    | exact Nat.le_refl _ | exact Eq.refl _ | (simp; done)

theorem omitLeading_calm {s u : State} (e : WebEntry) (h : Calm s u) : Calm s (omitLeading e u) := by
  unfold omitLeading
  repeat'
    first
    | with_reducible exact h | with_reducible apply flagUnregistered_calm | with_reducible apply dropCarried_calm
    | with_reducible apply setCut_calm | split | exact Nat.le_refl _ | exact Eq.refl _ | (simp; done)

theorem chooseCut_calm {s u : State} (h : Calm s u) : Calm s (chooseCut u) := by
  unfold chooseCut
  repeat'
    first
    | with_reducible exact h | with_reducible apply planCut_calm | with_reducible apply omitLeading_calm
    | with_reducible apply setCut_calm | split | exact Nat.le_refl _ | exact Eq.refl _ | (simp; done)

theorem freePlace_calm {s u : State} (h : Calm s u) : Calm s (freePlace u) := by
  unfold freePlace
  repeat' first | with_reducible exact h | with_reducible apply commandCut_calm | split

theorem retarget_calm {s u : State} (frame : Nat) (h : Calm s u) : Calm s (retarget frame u) := by
  unfold retarget
  dsimp only
  repeat'
    first
    | with_reducible exact h | with_reducible apply checkDue_calm | with_reducible apply setCut_calm | split
    | exact Nat.le_refl _ | exact Eq.refl _ | (simp; done)

theorem decideGap_calm {s u : State} (d : GapDecision) (offset : Int) (h : Calm s u) :
    Calm s (decideGap d offset u) := by
  unfold decideGap
  dsimp only
  repeat'
    first
    | with_reducible exact h | with_reducible apply beginSearch_calm | with_reducible apply setCut_calm
    | with_reducible apply updGap_calm | split | exact Nat.le_refl _ | exact Eq.refl _ | (simp; done)

theorem killAtBlade_calm {s u : State} (n : Nat) (h : Calm s u) : Calm s (killAtBlade n u) := by
  unfold killAtBlade
  repeat'
    first
    | with_reducible exact h | with_reducible apply updEntry_calm | with_reducible apply loseOnWeb_calm | split

theorem cutterFault_calm {s u : State} (cause : CutFaultCause) (h : Calm s u) : Calm s (cutterFault cause u) := by
  unfold cutterFault
  dsimp only
  repeat'
    first
    | with_reducible exact h | with_reducible apply setWebState_calm | with_reducible apply sendNotice_calm
    | with_reducible apply killAtBlade_calm | with_reducible apply setCut_calm | split | exact Nat.le_refl _
    | exact Eq.refl _ | (simp; done)

theorem gapFound_calm {s u : State} (g : GapRecord) (a m : Nat) (h : Calm s u) : Calm s (gapFound g a m u) := by
  unfold gapFound
  dsimp only
  repeat'
    first
    | with_reducible exact h | with_reducible apply retarget_calm | with_reducible apply decideGap_calm
    | with_reducible apply setCut_calm | split | exact Nat.le_refl _ | exact Eq.refl _ | (simp; done)

theorem gapMissed_calm {s u : State} (g : GapRecord) (m : Nat) (h : Calm s u) : Calm s (gapMissed g m u) := by
  unfold gapMissed
  dsimp only
  repeat'
    first
    | with_reducible exact h | with_reducible apply cutterFault_calm | with_reducible apply retarget_calm
    | with_reducible apply sendNotice_calm | with_reducible apply decideGap_calm | with_reducible apply setCut_calm
    | split | exact Nat.le_refl _ | exact Eq.refl _ | (simp; done)

theorem gapUnmarked_calm {s u : State} (g : GapRecord) (h : Calm s u) : Calm s (gapUnmarked g u) := by
  unfold gapUnmarked
  repeat'
    first
    | with_reducible exact h | with_reducible apply retarget_calm | with_reducible apply decideGap_calm | split

theorem takeSample_calm {s u : State} (x : Nat) (seen : Bool) (h : Calm s u) : Calm s (takeSample x seen u) := by
  unfold takeSample
  dsimp only
  repeat'
    first
    | with_reducible exact h | with_reducible apply gapUnmarked_calm | with_reducible apply gapFound_calm
    | with_reducible apply gapMissed_calm | with_reducible apply setCut_calm | split | exact Nat.le_refl _
    | exact Eq.refl _ | (simp; done)

theorem cutNewWeb_calm {s u : State} (h : Calm s u) : Calm s (cutNewWeb u) := by
  unfold cutNewWeb
  repeat'
    first
    | with_reducible exact h | with_reducible apply setCut_calm | split | exact Nat.le_refl _ | exact Eq.refl _
    | (simp; done)

theorem cutClear_calm {s u : State} (h : Calm s u) : Calm s (cutClear u) := by
  unfold cutClear
  dsimp only
  repeat'
    first
    | with_reducible exact h | with_reducible apply setCut_calm | split | exact Nat.le_refl _ | exact Eq.refl _
    | (simp; done)

theorem cutAppend_calm {s u : State} (e : WebEntry) (h : Calm s u) : Calm s (cutAppend e u) := by
  unfold cutAppend
  dsimp only
  repeat'
    first
    | with_reducible exact h | with_reducible apply chooseCut_calm | with_reducible apply beginSearch_calm
    | with_reducible apply setCut_calm | split | exact Nat.le_refl _ | exact Eq.refl _ | (simp; done)

/-! ### Sorter -/

theorem assignBin_calm {s u : State} (b slot number : Nat) (h : Calm s u) : Calm s (assignBin b slot number u) := by
  unfold assignBin
  dsimp only
  repeat'
    first
    | with_reducible exact h | with_reducible apply setOrder_calm | with_reducible apply updBin_calm | split

theorem releaseBins_calm {s u : State} (bins : List Nat) (h : Calm s u) : Calm s (releaseBins bins u) := by
  unfold releaseBins
  dsimp only
  apply owePass_calm
  generalize dropBin u = d
  induction bins generalizing u with
  | nil => exact h
  | cons b bs ih => exact ih (updBin_calm _ _ h)

theorem holdingFull_calm {s u : State} (b : Nat) (h : Calm s u) : Calm s (holdingFull b u) := by
  unfold holdingFull
  dsimp only
  repeat'
    first
    | with_reducible exact h | with_reducible apply sendNotice_calm | with_reducible apply setHolding_calm
    | with_reducible apply setSrt_calm | split | exact Nat.le_refl _ | exact Eq.refl _ | (simp; done)

theorem holdingOpen_calm {s u : State} (b : Nat) (h : Calm s u) : Calm s (holdingOpen b u) := by
  unfold holdingOpen
  dsimp only
  repeat'
    first
    | with_reducible exact h | with_reducible apply setHolding_calm | with_reducible apply setSrt_calm | split
    | exact Nat.le_refl _ | exact Eq.refl _ | (simp; done)

theorem sorterRestart_calm {s u : State} (h : Calm s u) : Calm s (sorterRestart u) := by
  unfold sorterRestart
  repeat'
    first
    | with_reducible exact h | with_reducible apply setSrt_calm | split | exact Nat.le_refl _ | exact Eq.refl _
    | (simp; done)

theorem appendPiece_calm {s u : State} (e : WebEntry) (h : Calm s u) : Calm s (appendPiece e u) := by
  unfold appendPiece
  dsimp only
  repeat'
    first
    | with_reducible exact h | with_reducible apply drive_calm | with_reducible apply setSrt_calm | split
    | exact Nat.le_refl _ | exact Eq.refl _ | (simp; done)

theorem noteDiscard_calm {s u : State} (p : Piece) (h : Calm s u) : Calm s (noteDiscard p u) := by
  unfold noteDiscard
  repeat'
    first
    | with_reducible exact h | with_reducible apply setSrt_calm | split | exact Nat.le_refl _ | exact Eq.refl _
    | (simp; done)

theorem headLeaves_calm {s u : State} (h : Calm s u) : Calm s (headLeaves u) := by
  unfold headLeaves
  dsimp only
  repeat'
    first
    | with_reducible exact h | with_reducible apply freePlace_calm | with_reducible apply stripUnread_calm
    | with_reducible apply noteDiscard_calm | with_reducible apply setSrt_calm | split | exact Nat.le_refl _
    | exact Eq.refl _ | (simp; done)

theorem startDrop_calm {s u : State} (b : Nat) (h : Calm s u) : Calm s (startDrop b u) := by
  unfold startDrop
  dsimp only
  repeat'
    first
    | with_reducible exact h | with_reducible apply drive_calm | with_reducible apply setSrt_calm | split
    | exact Nat.le_refl _ | exact Eq.refl _ | (simp; done)

theorem routePrint_calm {s u : State} (r : PrintRef) (frame : Nat) (h : Calm s u) :
    Calm s (routePrint r frame u) := by
  unfold routePrint
  dsimp only
  repeat'
    first
    | with_reducible exact h | with_reducible apply startDrop_calm | with_reducible apply assignBin_calm
    | with_reducible apply sendNotice_calm | with_reducible apply setOrder_calm | split

theorem dropStart_calm {s u : State} (h : Calm s u) : Calm s (dropStart u) := by
  unfold dropStart
  repeat'
    first
    | with_reducible exact h | with_reducible apply routePrint_calm | with_reducible apply startDrop_calm | split

theorem landIn_calm {s u : State} (b : Nat) (h : Calm s u) : Calm s (landIn b u) := by
  unfold landIn
  dsimp only
  repeat'
    first
    | with_reducible exact h | with_reducible apply updBin_calm | with_reducible apply holdingFull_calm
    | with_reducible apply setHolding_calm | split

theorem dropDone_calm {s u : State} (h : Calm s u) : Calm s (dropDone u) := by
  unfold dropDone
  dsimp only
  repeat'
    first
    | with_reducible exact h | with_reducible apply headLeaves_calm | with_reducible apply reportDelivered_calm
    | with_reducible apply landIn_calm | with_reducible apply setSrt_calm | split | exact Nat.le_refl _
    | exact Eq.refl _ | (simp; done)

theorem endDrop_calm {s u : State} (h : Calm s u) : Calm s (endDrop u) := by
  unfold endDrop
  repeat'
    first
    | with_reducible exact h | with_reducible apply setSrt_calm | split | exact Nat.le_refl _ | exact Eq.refl _
    | (simp; done)

theorem jamHead_calm {s u : State} (h : Calm s u) : Calm s (jamHead u) := by
  unfold jamHead
  dsimp only
  repeat'
    first
    | with_reducible exact h | with_reducible apply accountLoss_calm | with_reducible apply setSrt_calm | split
    | exact Nat.le_refl _ | exact Eq.refl _ | (simp; done)

theorem sorterFaultNotice_calm {s u : State} (h : Calm s u) : Calm s (sorterFaultNotice u) := by
  unfold sorterFaultNotice
  dsimp only
  repeat' first | with_reducible exact h | with_reducible apply sendNotice_calm | split

theorem emptiedEarly_calm {s u : State} (b : Nat) (x : OrderBin) (h : Calm s u) : Calm s (emptiedEarly b x u) := by
  unfold emptiedEarly
  dsimp only
  repeat'
    first
    | with_reducible exact h | with_reducible apply sendNotice_calm | with_reducible apply modOrder_calm
    | with_reducible apply updBin_calm | split

theorem orderBinEvent_calm {s u : State} (b : Nat) (v : Occupancy) (h : Calm s u) :
    Calm s (orderBinEvent b v u) := by
  unfold orderBinEvent
  repeat'
    first
    | with_reducible exact h | with_reducible apply owePass_calm | with_reducible apply emptiedEarly_calm
    | with_reducible apply updBin_calm | split

theorem holdingBinEvent_calm {s u : State} (b : Nat) (v : Occupancy) (h : Calm s u) :
    Calm s (holdingBinEvent b v u) := by
  unfold holdingBinEvent
  dsimp only
  repeat'
    first
    | with_reducible exact h | with_reducible apply holdingOpen_calm | with_reducible apply setHolding_calm | split

theorem binSample_calm {s u : State} (b : Nat) (v : Occupancy) (h : Calm s u) : Calm s (binSample b v u) := by
  unfold binSample
  dsimp only
  repeat'
    first
    | with_reducible exact h | with_reducible apply orderBinEvent_calm | with_reducible apply holdingBinEvent_calm
    | with_reducible apply updBin_calm | with_reducible apply setHolding_calm | split

theorem realignBins_calm {s u : State} (cap : Nat) (h : Calm s u) : Calm s (realignBins cap u) := by
  unfold realignBins
  repeat'
    first
    | with_reducible exact h | with_reducible apply owePass_calm | with_reducible apply setSrt_calm | split
    | exact Nat.le_refl _ | exact Eq.refl _ | (simp; done)

theorem realignHolding_calm {s u : State} (b cap : Nat) (h : Calm s u) : Calm s (realignHolding b cap u) := by
  unfold realignHolding
  dsimp only
  repeat'
    first
    | with_reducible exact h | with_reducible apply holdingOpen_calm | with_reducible apply holdingFull_calm | split

/-! ### Image fetch -/

theorem primeTest_calm {s u : State} (frame : Nat) (h : Calm s u) : Calm s (primeTest frame u) := by
  unfold primeTest
  repeat'
    first
    | with_reducible exact h | with_reducible apply oweRun_calm | with_reducible apply setIfu_calm | split
    | exact Nat.le_refl _ | exact Eq.refl _ | (simp; done)

theorem strayData_calm {s u : State} (tag : Nat) (reason : StrayReason) (msg : Option DataMsg) (h : Calm s u) :
    Calm s (strayData tag reason msg u) := by
  unfold strayData
  repeat' first | with_reducible exact h | with_reducible apply sendNotice_calm | split

theorem setTag_calm {s u : State} (t : Nat) (x : FetchTag) (h : Calm s u) : Calm s (setTag t x u) := by
  unfold setTag
  repeat'
    first
    | with_reducible exact h | with_reducible apply setIfu_calm | split | exact Nat.le_refl _ | exact Eq.refl _
    | (simp; done)

theorem setSlot_calm {s u : State} (i : Nat) (x : LineSlot) (h : Calm s u) : Calm s (setSlot i x u) := by
  unfold setSlot
  repeat'
    first
    | with_reducible exact h | with_reducible apply setIfu_calm | split | exact Nat.le_refl _ | exact Eq.refl _
    | (simp; done)

theorem fillSlot_calm {s u : State} (i : Nat) (pixels : List (RGB Byte)) (h : Calm s u) :
    Calm s (fillSlot i pixels u) := by
  unfold fillSlot
  repeat'
    first
    | with_reducible exact h | with_reducible apply primeTest_calm | with_reducible apply setSlot_calm | split

theorem untagSlot_calm {s u : State} (i : Nat) (h : Calm s u) : Calm s (untagSlot i u) := by
  unfold untagSlot
  repeat' first | with_reducible exact h | with_reducible apply setSlot_calm | split

theorem imageFailure_calm {s u : State} (frame : Nat) (cause : LossCause) (h : Calm s u) :
    Calm s (imageFailure frame cause u) := by
  unfold imageFailure
  dsimp only
  repeat'
    first
    | with_reducible exact h | with_reducible apply abandonSupply_calm | with_reducible apply spoilOnWeb_calm
    | with_reducible apply accountLoss_calm | with_reducible apply removeFrames_calm | split

theorem actOnData_calm {s u : State} (i : Nat) (info : FetchInfo) (msg : DataMsg) (h : Calm s u) :
    Calm s (actOnData i info msg u) := by
  unfold actOnData
  repeat'
    first
    | with_reducible exact h | with_reducible apply fillSlot_calm | with_reducible apply untagSlot_calm
    | with_reducible apply imageFailure_calm | with_reducible apply setSlot_calm | split

theorem withdrawFetch_calm {s u : State} (t : Nat) (h : Calm s u) : Calm s (withdrawFetch t u) :=
  setLnk_calm h { LnkCalm.rfl with }

theorem takeData_calm {s u : State} (tag : Nat) (body : List Byte) (h : Calm s u) :
    Calm s (takeData tag body u) := by
  unfold takeData
  dsimp only
  repeat'
    first
    | with_reducible exact h | with_reducible apply actOnData_calm | with_reducible apply oweWindow_calm
    | with_reducible apply withdrawFetch_calm | with_reducible apply setTag_calm | with_reducible apply strayData_calm
    | split

theorem expireTag_calm {s u : State} (t : Nat) (h : Calm s u) : Calm s (expireTag t u) := by
  unfold expireTag
  dsimp only
  repeat'
    first
    | with_reducible exact h | with_reducible apply oweWindow_calm | with_reducible apply untagSlot_calm
    | with_reducible apply setIfu_calm | with_reducible apply setTag_calm | split | exact Nat.le_refl _
    | exact Eq.refl _ | (simp; done)

theorem endQuarantine_calm {s u : State} (t : Nat) (h : Calm s u) : Calm s (endQuarantine t u) := by
  unfold endQuarantine
  repeat'
    first
    | with_reducible exact h | with_reducible apply oweWindow_calm | with_reducible apply setTag_calm | split

theorem advanceCurrent_calm {s u : State} (k : Nat) (c : Current) (h : Calm s u) :
    Calm s (advanceCurrent k c u) := by
  unfold advanceCurrent
  repeat'
    first
    | with_reducible exact h | with_reducible apply setIfu_calm | with_reducible apply releaseFrame_calm | split
    | exact Nat.le_refl _ | exact Eq.refl _ | (simp; done)

theorem lineDue_calm {s u : State} (k : Nat) (h : Calm s u) : Calm s (lineDue k u) := by
  unfold lineDue
  dsimp only
  repeat'
    first
    | with_reducible exact h | with_reducible apply oweWindow_calm | with_reducible apply advanceCurrent_calm
    | with_reducible apply drive_calm | with_reducible apply abandonSupply_calm | with_reducible apply spoilOnWeb_calm
    | with_reducible apply setIfu_calm | split | exact Nat.le_refl _ | exact Eq.refl _ | (simp; done)

theorem startFetchTimer_calm {s u : State} (f : FetchFrame) (h : Calm s u) : Calm s (startFetchTimer f u) := by
  unfold startFetchTimer
  repeat' first | with_reducible exact h | with_reducible apply setTag_calm | split

theorem fetchSentEffect_calm {s u : State} (h : Calm s u) : Calm s (fetchSentEffect u) := by
  unfold fetchSentEffect
  split
  · exact startImageTx_calm (startFetchTimer_calm _ (setLnk_calm h { LnkCalm.rfl with }))
  · exact h

/-! ### Requests on orders and paper -/

theorem foldl_calm {α : Type} {f : State → α → State} (hf : ∀ {s u : State} (a : α), Calm s u → Calm s (f u a))
    (xs : List α) {s u : State} (h : Calm s u) : Calm s (xs.foldl f u) := by
  induction xs generalizing u with
  | nil => exact h
  | cons x xs ih => exact ih (hf x h)

theorem killOnWeb_calm {s u : State} (number : Nat) (h : Calm s u) : Calm s (killOnWeb number u) :=
  foldl_calm (fun e k => abandonSupply_calm e.frame.number k) _ (setWeb_calm h (by simp))

theorem killInTransit_calm {s u : State} (number : Nat) (h : Calm s u) : Calm s (killInTransit number u) := by
  unfold killInTransit
  repeat'
    first
    | with_reducible exact h | with_reducible apply setSrt_calm | split | exact Nat.le_refl _ | exact Eq.refl _
    | (simp; done)

theorem freeOrder_calm {s u : State} (slot : Nat) (h : Calm s u) : Calm s (freeOrder slot u) := by
  unfold freeOrder
  repeat'
    first
    | with_reducible exact h | with_reducible apply owePass_calm | with_reducible apply setOrder_calm | split

theorem cancelOrder_calm {s u : State} (slot : Nat) (o : Order) (h : Calm s u) : Calm s (cancelOrder slot o u) := by
  unfold cancelOrder
  dsimp only
  repeat'
    first
    | with_reducible exact h | with_reducible apply freeOrder_calm | with_reducible apply releaseBins_calm
    | with_reducible apply killInTransit_calm | with_reducible apply killOnWeb_calm
    | with_reducible apply removeFrames_calm | split

theorem applyPriority_calm {s u : State} (slot : Nat) (o : Order) (p : Nat) (h : Calm s u) :
    Calm s (applyPriority slot o p u) := by
  unfold applyPriority
  dsimp only
  repeat'
    first
    | with_reducible exact h | with_reducible apply owePass_calm | with_reducible apply removeFrames_calm
    | with_reducible apply replaceFrames_calm | with_reducible apply setOrder_calm | split

theorem loadRoll_calm {s u : State} (x : Roll) (h : Calm s u) : Calm s (loadRoll x u) := by
  unfold loadRoll
  dsimp only
  repeat'
    first
    | with_reducible exact h | with_reducible apply commandThreading_calm | with_reducible apply oweMagazine_calm
    | with_reducible apply magazineUnusable_calm | with_reducible apply lowMarkTest_calm
    | with_reducible apply setMag_calm | split

theorem unload_calm {s u : State} (m : Mag) (h : Calm s u) : Calm s (unload m u) := by
  unfold unload
  dsimp only
  repeat'
    first
    | with_reducible exact h | with_reducible apply oweMagazine_calm | with_reducible apply magazineUnusable_calm
    | with_reducible apply setMag_calm | with_reducible apply setRemaining_calm | split

theorem resumeSorter_calm {s u : State} (h : Calm s u) : Calm s (resumeSorter u) := by
  unfold resumeSorter
  repeat'
    first
    | with_reducible exact h | with_reducible apply sorterRestart_calm | with_reducible apply headLeaves_calm | split

/-! ### Path clearing -/

theorem stopWeb_calm {s u : State} (h : Calm s u) : Calm s (stopWeb u) := by
  unfold stopWeb
  dsimp only
  repeat'
    first
    | with_reducible exact h | with_reducible apply setWeb_calm | with_reducible apply disarmFlush_calm
    | with_reducible apply stopFlush_calm | with_reducible apply endRunEarly_calm | split | exact Nat.le_refl _
    | exact Eq.refl _ | (simp; done)

theorem clearWeb_calm {s u : State} (h : Calm s u) : Calm s (clearWeb u) := by
  unfold clearWeb
  dsimp only
  repeat'
    first
    | with_reducible exact h | with_reducible apply setWebState_calm | with_reducible apply commandThreading_calm
    | split

theorem stripCleared_calm {s u : State} (m : Mag) (frame : Nat) (h : Calm s u) :
    Calm s (stripCleared m frame u) := by
  unfold stripCleared
  repeat'
    first
    | with_reducible exact h | with_reducible apply owePass_calm | with_reducible apply setMark_calm | split

theorem clearFrame_calm {s u : State} (f : Frame) (held : HeldIn) (told : Bool) (h : Calm s u) :
    Calm s (clearFrame f held told u) := by
  unfold clearFrame
  repeat'
    first
    | with_reducible exact h | with_reducible apply accountLoss_calm | with_reducible apply stripCleared_calm | split

theorem clearEntries_calm (es : List WebEntry) {s u : State} (h : Calm s u) : Calm s (clearEntries es u) := by
  induction es generalizing u with
  | nil => exact h
  | cons e es ih => exact ih (clearFrame_calm _ _ _ h)

theorem clearPieces_calm (ps : List Piece) {s u : State} (h : Calm s u) : Calm s (clearPieces ps u) := by
  induction ps generalizing u with
  | nil => exact h
  | cons p ps ih => exact ih (clearFrame_calm _ _ _ (noteDiscard_calm _ h))

theorem emptyWebMap_calm {s u : State} (h : Calm s u) : Calm s (emptyWebMap u) :=
  clearEntries_calm _ (setWeb_calm h (Nat.zero_le _))

theorem emptyTransit_calm {s u : State} (h : Calm s u) : Calm s (emptyTransit u) := by
  unfold emptyTransit
  dsimp only
  repeat'
    first
    | with_reducible exact h | with_reducible apply clearPieces_calm | with_reducible apply setSrt_calm | split
    | exact Nat.le_refl _ | exact Eq.refl _ | (simp; done)

theorem pathClear_calm {s u : State} (h : Calm s u) : Calm s (pathClear u) := by
  unfold pathClear
  dsimp only
  repeat'
    first
    | with_reducible exact h | with_reducible apply freePlace_calm | with_reducible apply clearWeb_calm
    | with_reducible apply sorterRestart_calm | with_reducible apply endDrop_calm | with_reducible apply cutClear_calm
    | with_reducible apply emptyTransit_calm | with_reducible apply emptyWebMap_calm
    | with_reducible apply stopWeb_calm | split

/-! ### Events of the head and the web -/

theorem warmUpDone_calm {s u : State} (h : Calm s u) : Calm s (warmUpDone u) := by
  unfold warmUpDone
  repeat'
    first
    | with_reducible exact h | with_reducible apply oweRun_calm | with_reducible apply awake_calm
    | with_reducible apply setHead_calm | split

theorem headFaultNotice_calm {s u : State} (before : HeadState) (frame : Option Nat) (h : Calm s u) :
    Calm s (headFaultNotice before frame u) := by
  unfold headFaultNotice
  repeat' first | with_reducible exact h | with_reducible apply sendNotice_calm | split

theorem spoilByHead_calm {s u : State} (n : Nat) (h : Calm s u) : Calm s (spoilByHead n u) := by
  unfold spoilByHead
  repeat'
    first
    | with_reducible exact h | with_reducible apply abandonSupply_calm | with_reducible apply spoilOnWeb_calm
    | with_reducible apply updEntry_calm | split

theorem headToFault_calm {s u : State} (before : HeadState) (frame : Option Nat) (h : Calm s u) :
    Calm s (headToFault before frame u) := by
  unfold headToFault
  repeat'
    first
    | with_reducible exact h | with_reducible apply headFaultNotice_calm | with_reducible apply awake_calm
    | with_reducible apply setHead_calm | split

theorem headFault_calm {s u : State} (h : Calm s u) : Calm s (headFault u) := by
  unfold headFault
  repeat'
    first
    | with_reducible exact h | with_reducible apply spoilByHead_calm | with_reducible apply headToFault_calm | split

theorem takeHead_calm {s u : State} (h : Calm s u) : Calm s (takeHead u) :=
  oweLeave_calm (setIfu_calm (setSch_calm h (by simp)) (Eq.refl _) (Eq.refl _))

theorem beginExposure_calm {s u : State} (f : Frame) (x : ExposureResult) (h : Calm s u) :
    Calm s (beginExposure f x u) := by
  unfold beginExposure
  dsimp only
  repeat'
    first
    | with_reducible exact h | with_reducible apply drive_calm | with_reducible apply setHead_calm
    | with_reducible apply sendNotice_calm | split

/-- The web map has room for the frame of a run (R99). -/
theorem appendRun_calm {s u : State} (f : Frame) (h : Calm s u) (room : u.web.map.length < 32) :
    Calm s (appendRun f u) := by
  refine cutAppend_calm _ (setIfu_calm (h.trans { Calm.rfl with map := fun _ => ?_ }) (Eq.refl _) (Eq.refl _))
  show (u.web.map ++ [_]).length ≤ 32
  rw [List.length_append]
  exact room

theorem driveRun_calm {s u : State} (f : Frame) (period : Nat) (h : Calm s u) : Calm s (driveRun f period u) :=
  drive_calm _ (setWeb_calm h (Nat.le_refl _))

theorem beginExposure_map (f : Frame) (x : ExposureResult) (u : State) :
    (beginExposure f x u).web = u.web := by
  unfold beginExposure sendNotice
  dsimp only
  repeat' first | exact Eq.refl _ | split

theorem startRun_calm {s u : State} (f : Frame) (h : Calm s u) (room : u.web.map.length < 32) :
    Calm s (startRun f u) := by
  refine driveRun_calm _ _ (appendRun_calm _ (beginExposure_calm _ _ (takeHead_calm h)) ?_)
  rw [beginExposure_map]
  exact room

theorem runReady_room {u : State} (h : runReady u = true) : u.web.map.length < 32 := by
  unfold runReady at h
  split at h
  · simp only [Bool.and_eq_true, decide_eq_true_eq] at h
    exact h.2
  · cases h

theorem runStart_calm {s u : State} (h : Calm s u) : Calm s (runStart u) := by
  unfold runStart
  split
  · rename_i k
    split
    · exact startRun_calm _ h (runReady_room k)
    · exact h
  · exact h

theorem updNewest_calm {s u : State} (f : WebEntry → WebEntry) (h : Calm s u) : Calm s (updNewest f u) := by
  unfold updNewest
  repeat' first | with_reducible exact h | with_reducible apply updEntry_calm | split

theorem markStep_calm {s u : State} (h : Calm s u) : Calm s (markStep u) := by
  unfold markStep
  repeat'
    first
    | with_reducible exact h | with_reducible apply drive_calm | with_reducible apply updEntry_calm | split

theorem runStepHead_calm {s u : State} (r : Run) (h : Calm s u) : Calm s (runStepHead r u) := by
  unfold runStepHead
  repeat'
    first
    | with_reducible exact h | with_reducible apply lineDue_calm | with_reducible apply markStep_calm | split

theorem runComplete_calm {s u : State} (h : Calm s u) : Calm s (runComplete u) := by
  unfold runComplete
  dsimp only
  repeat'
    first
    | with_reducible exact h | with_reducible apply beginFlush_calm | with_reducible apply oweFlush_calm
    | with_reducible apply oweRun_calm | with_reducible apply headRunOver_calm | with_reducible apply updNewest_calm
    | with_reducible apply setWeb_calm | split | exact Nat.le_refl _ | exact Eq.refl _ | (simp; done)

theorem runStep_calm {s u : State} (r : Run) (h : Calm s u) : Calm s (runStep r u) := by
  unfold runStep
  dsimp only
  repeat'
    first
    | with_reducible exact h | with_reducible apply runComplete_calm | with_reducible apply setWeb_calm
    | with_reducible apply feedOne_calm | with_reducible apply runStepHead_calm | split | exact Nat.le_refl _
    | exact Eq.refl _ | (simp; done)

theorem flushRollEnd_calm {s u : State} (before : Nat) (h : Calm s u) : Calm s (flushRollEnd before u) := by
  unfold flushRollEnd
  repeat'
    first
    | with_reducible exact h | with_reducible apply emptyOrDrop_calm | with_reducible apply stopFlush_calm | split

theorem flushStep_calm {s u : State} (h : Calm s u) : Calm s (flushStep u) := by
  unfold flushStep
  dsimp only
  repeat'
    first
    | with_reducible exact h | with_reducible apply flushRollEnd_calm | with_reducible apply stopFlush_calm
    | with_reducible apply feedOne_calm | split

theorem feedStep_calm {s u : State} (h : Calm s u) : Calm s (feedStep u) := by
  unfold feedStep
  repeat'
    first
    | with_reducible exact h | with_reducible apply runStep_calm | with_reducible apply flushStep_calm | split

theorem flushExpiry_calm {s u : State} (h : Calm s u) : Calm s (flushExpiry u) := by
  unfold flushExpiry
  repeat'
    first
    | with_reducible exact h | with_reducible apply beginFlush_calm | with_reducible apply disarmFlush_calm | split

theorem markActive_calm {s u : State} (m : Mag) (h : Calm s u) : Calm s (markActive m u) := by
  unfold markActive
  repeat' first | with_reducible exact h | with_reducible apply setMark_calm | split

theorem markInactive_calm {s u : State} (m : Mag) (h : Calm s u) : Calm s (markInactive m u) := by
  unfold markInactive
  repeat' first | with_reducible exact h | with_reducible apply setMark_calm | split

theorem changeoverDone_calm {s u : State} (m : Mag) (h : Calm s u) : Calm s (changeoverDone m u) := by
  unfold changeoverDone
  dsimp only
  repeat'
    first
    | with_reducible exact h | with_reducible apply setSch_calm | with_reducible apply sendNotice_calm
    | with_reducible apply markInactive_calm | with_reducible apply setWeb_calm | split | exact Nat.le_refl _
    | exact Eq.refl _ | (simp; done)

theorem newWeb_calm {s u : State} (m : Mag) (h : Calm s u) : Calm s (newWeb m u) := by
  unfold newWeb
  dsimp only
  repeat'
    first
    | with_reducible exact h | with_reducible apply setWebState_calm | with_reducible apply setRemaining_calm
    | with_reducible apply setWeb_calm | split | exact Nat.le_refl _ | exact Eq.refl _ | (simp; done)

theorem askAtThreaded_calm {s u : State} (m : Mag) (h : Calm s u) : Calm s (askAtThreaded m u) := by
  unfold askAtThreaded
  repeat'
    first
    | with_reducible exact h | with_reducible apply changeoverDone_calm | with_reducible apply enterChangeover_calm
    | split

theorem threaded_calm {s u : State} (m : Mag) (h : Calm s u) : Calm s (threaded m u) := by
  unfold threaded
  dsimp only
  repeat'
    first
    | with_reducible exact h | with_reducible apply oweMagazine_calm | with_reducible apply askAtThreaded_calm
    | with_reducible apply markActive_calm | with_reducible apply cutNewWeb_calm | with_reducible apply newWeb_calm
    | split

theorem threadedEvent_calm {s u : State} (h : Calm s u) : Calm s (threadedEvent u) := by
  unfold threadedEvent
  repeat' first | with_reducible exact h | with_reducible apply threaded_calm | split

theorem paperGone_calm {s u : State} (m : Mag) (h : Calm s u) : Calm s (paperGone m u) := by
  unfold paperGone
  dsimp only
  repeat'
    first
    | with_reducible exact h | with_reducible apply emptyOrDrop_calm | with_reducible apply setRemaining_calm | split

theorem spoilByPaperEnd_calm {s u : State} (h : Calm s u) : Calm s (spoilByPaperEnd u) := by
  unfold spoilByPaperEnd
  repeat'
    first
    | with_reducible exact h | with_reducible apply endRunEarly_calm | with_reducible apply spoilOnWeb_calm
    | with_reducible apply updEntry_calm | split

theorem paperEndRunning_calm {s u : State} (h : Calm s u) : Calm s (paperEndRunning u) := by
  unfold paperEndRunning
  repeat'
    first
    | with_reducible exact h | with_reducible apply setWebState_calm | with_reducible apply stopFlush_calm
    | with_reducible apply spoilByPaperEnd_calm | with_reducible apply paperGone_calm | split

theorem paperEndThreading_calm {s u : State} (m : Mag) (h : Calm s u) : Calm s (paperEndThreading m u) := by
  unfold paperEndThreading
  repeat'
    first
    | with_reducible exact h | with_reducible apply paperGone_calm | with_reducible apply setWebState_calm
    | with_reducible apply setWeb_calm | split | exact Nat.le_refl _ | exact Eq.refl _ | (simp; done)

theorem paperEndFault_calm {s u : State} (h : Calm s u) : Calm s (paperEndFault u) := by
  unfold paperEndFault
  repeat' first | with_reducible exact h | with_reducible apply paperGone_calm | split

theorem paperEnd_calm {s u : State} (h : Calm s u) : Calm s (paperEnd u) := by
  unfold paperEnd
  repeat'
    first
    | with_reducible exact h | with_reducible apply paperEndRunning_calm | with_reducible apply paperEndThreading_calm
    | with_reducible apply paperEndFault_calm | split

theorem buttonPress_calm {s u : State} (h : Calm s u) : Calm s (buttonPress u) := by
  unfold buttonPress
  repeat' first | with_reducible exact h | with_reducible apply pathClear_calm | split

/-! ### Events of the cutter and the sorter -/

theorem cutterAdvance_calm {s u : State} (seen : Bool) (h : Calm s u) : Calm s (cutterAdvance seen u) := by
  unfold cutterAdvance
  dsimp only
  repeat'
    first
    | with_reducible exact h | with_reducible apply oweRun_calm | with_reducible apply checkDue_calm
    | with_reducible apply takeSample_calm | with_reducible apply setWeb_calm | split | exact Nat.le_refl _
    | exact Eq.refl _ | (simp; done)

theorem cutterStep_calm {s u : State} (seen : Bool) (h : Calm s u) : Calm s (cutterStep seen u) := by
  unfold cutterStep
  repeat' first | with_reducible exact h | with_reducible apply cutterAdvance_calm | split

theorem leadingDone_calm {s u : State} (h : Calm s u) : Calm s (leadingDone u) := by
  unfold leadingDone
  repeat'
    first
    | with_reducible exact h | with_reducible apply dropCarried_calm | with_reducible apply setCut_calm | split
    | exact Nat.le_refl _ | exact Eq.refl _ | (simp; done)

theorem trailingDone_calm {s u : State} (h : Calm s u) : Calm s (trailingDone u) := by
  unfold trailingDone
  split
  · rename_i e rest k
    refine oweFlush_calm (oweRun_calm (setCut_calm (appendPiece_calm _ (setWeb_calm h ?_))))
    simp [k]
  · exact h

theorem finishCut_calm {s u : State} (h : Calm s u) : Calm s (finishCut u) := by
  unfold finishCut
  dsimp only
  repeat'
    first
    | with_reducible exact h | with_reducible apply chooseCut_calm | with_reducible apply leadingDone_calm
    | with_reducible apply changeoverThread_calm | with_reducible apply trailingDone_calm | split

theorem cutDone_calm {s u : State} (h : Calm s u) : Calm s (cutDone u) := by
  unfold cutDone
  repeat'
    first
    | with_reducible exact h | with_reducible apply finishCut_calm | with_reducible apply setCut_calm | split
    | exact Nat.le_refl _ | exact Eq.refl _ | (simp; done)

theorem bladeJam_calm {s u : State} (h : Calm s u) : Calm s (bladeJam u) := by
  unfold bladeJam
  repeat' first | with_reducible exact h | with_reducible apply cutterFault_calm | split

theorem reading_calm {s u : State} (x : RGB Nat) (h : Calm s u) : Calm s (reading x u) := by
  unfold reading
  repeat'
    first
    | with_reducible exact h | with_reducible apply stripRead_calm | with_reducible apply setSrt_calm | split
    | exact Nat.le_refl _ | exact Eq.refl _ | (simp; done)

theorem dropStartEffect_calm {s u : State} (h : Calm s u) : Calm s (dropStartEffect u) := by
  unfold dropStartEffect
  repeat' first | with_reducible exact h | with_reducible apply dropStart_calm | split

theorem dropCompletion_calm {s u : State} (h : Calm s u) : Calm s (dropCompletion u) := by
  unfold dropCompletion
  repeat'
    first
    | with_reducible exact h | with_reducible apply dropDone_calm | with_reducible apply setSrt_calm | split
    | exact Nat.le_refl _ | exact Eq.refl _ | (simp; done)

theorem enterJam_calm {s u : State} (h : Calm s u) : Calm s (enterJam u) := by
  unfold enterJam
  dsimp only
  repeat'
    first
    | with_reducible exact h | with_reducible apply sorterFaultNotice_calm | with_reducible apply jamHead_calm
    | with_reducible apply setSrt_calm | split | exact Nat.le_refl _ | exact Eq.refl _ | (simp; done)

theorem transportJam_calm {s u : State} (h : Calm s u) : Calm s (transportJam u) := by
  unfold transportJam
  repeat' first | with_reducible exact h | with_reducible apply enterJam_calm | split

theorem binSamples_calm {s u : State} (b : Nat) (samples : List Occupancy) (h : Calm s u) :
    Calm s (binSamples b samples u) := foldl_calm (fun v k => binSample_calm b v k) samples h

theorem enterStandby_calm {s u : State} (h : Calm s u) : Calm s (enterStandby u) :=
  setLnk_calm (drive_calm _ (drive_calm _ (drive_calm _ (drive_calm _ (setHead_calm _ (disarmFlush_calm
    (setWeb_calm h (Nat.le_refl _)))))))) { LnkCalm.rfl with }

theorem idleExpiry_calm {s u : State} (h : Calm s u) : Calm s (idleExpiry u) := by
  unfold idleExpiry
  repeat' first | with_reducible exact h | with_reducible apply enterStandby_calm | split

end Sys2Proof.Machine
end

