-- ==== Sys2Proof/Laws/Link.lean ====
section
/-!
SUPPORT. The end of an event on the Station link, said once: what the transmitter's next frame changes, when waiting
requests stay waiting, and how a request that arrives is carried out and answered.
-/
namespace Sys2Proof.Machine

/-! ### Changes of LNK alone -/

theorem OnlyLink.rfl {s : State} : OnlyLink s s := Eq.refl _

theorem OnlyLink.trans {s t u : State} (h : OnlyLink s t) (k : OnlyLink t u) : OnlyLink s u := by
  unfold OnlyLink at *
  rw [k, h]

/-- A change of LNK alone keeps every other block. -/
theorem OnlyLink.settles {s t : State} (h : OnlyLink s t) : Settles s t := by
  rw [h]
  exact ⟨.rfl, .rfl, .rfl, Eq.refl _, .rfl, .rfl, .rfl, Eq.refl _, Eq.refl _, Eq.refl _, Eq.refl _⟩

theorem onlyLink_setLnk (s : State) (x : Lnk) : OnlyLink s (s.setLnk x) := Eq.refl _

theorem onlyLink_begin (s : State) : OnlyLink s (begin s) := Eq.refl _

/-- Seeing to the idle timer changes LNK alone. -/
theorem onlyLink_idleService (s : State) : OnlyLink s (idleService s) := Eq.refl _

theorem LinkSame.rfl {s : State} : LinkSame s s := by constructor <;> exact Eq.refl _

theorem LinkSame.trans {s t u : State} (h : LinkSame s t) (k : LinkSame t u) : LinkSame s u :=
  ⟨k.power.trans h.power, k.stationRx.trans h.stationRx, k.imageRx.trans h.imageRx, k.waiting.trans h.waiting,
    k.resetPending.trans h.resetPending, k.stationCrc.trans h.stationCrc, k.stationFraming.trans h.stationFraming,
    k.imageCrc.trans h.imageCrc, k.imageFraming.trans h.imageFraming, k.rxOverruns.trans h.rxOverruns⟩

theorem Keeps.linkSame {s t : State} (k : Keeps s t) : LinkSame s t :=
  ⟨k.lnk.power, k.lnk.stationRx, k.lnk.imageRx, k.lnk.waiting, k.lnk.resetPending, k.lnk.stationCrc,
    k.lnk.stationFraming, k.lnk.imageCrc, k.lnk.imageFraming, k.lnk.rxOverruns⟩

theorem Keeps.outgoing {s t : State} (k : Keeps s t) : outgoing t = outgoing s := by
  unfold Machine.outgoing
  rw [k.lnk.tx, k.lnk.replies]

/-- The command to the cutter feed is a command to a port or none. -/
theorem driveCutter_ports (b : Option Int) (s : State) : ∃ p, driveCutter b s = s.setPorts p := by
  unfold driveCutter drive
  repeat' first | exact ⟨_, Eq.refl _⟩ | split

/-- The command to the exposure feed for a flush is a command to a port or none. -/
theorem driveFlush_ports (b : Option Nat) (s : State) : ∃ p, driveFlush b s = s.setPorts p := by
  unfold driveFlush drive
  repeat' first | exact ⟨_, Eq.refl _⟩ | split

/-- The commands to the feeds at the end of an event change the ports alone. -/
theorem driveFeeds_ports (b s : State) : ∃ p, driveFeeds b s = s.setPorts p := by
  obtain ⟨p, e⟩ := driveCutter_ports (cutterDrive b) s
  obtain ⟨q, e'⟩ := driveFlush_ports (flushDrive b) (s.setPorts p)
  exact ⟨q, by unfold driveFeeds; rw [e, e']; exact Eq.refl _⟩

theorem onlyLink_driveFeeds (b s : State) : OnlyLink s (driveFeeds b s) := by
  obtain ⟨p, e⟩ := driveFeeds_ports b s
  rw [e]
  exact Eq.refl _

theorem linkSame_driveFeeds (b s : State) : LinkSame s (driveFeeds b s) := by
  obtain ⟨p, e⟩ := driveFeeds_ports b s
  rw [e]
  constructor <;> exact Eq.refl _

theorem driveFeeds_lnk (b s : State) : (driveFeeds b s).lnk = s.lnk := by
  obtain ⟨p, e⟩ := driveFeeds_ports b s
  rw [e]
  exact Eq.refl _

theorem driveCutter_same {b : Option Int} {s : State} (h : cutterDrive s = b) : driveCutter b s = s := if_pos h

/-- Feeds that do what they did before the event are commanded nothing. -/
theorem driveFeeds_same {b s : State} (h : cutterDrive s = cutterDrive b) (k : flushDrive s = flushDrive b) :
    driveFeeds b s = s := by
  unfold driveFeeds
  rw [driveCutter_same h]
  exact if_pos k

theorem driveFeeds_outgoing (b s : State) : outgoing (driveFeeds b s) = outgoing s := by
  unfold outgoing
  rw [driveFeeds_lnk]

/-! ### The transmitter -/

theorem takeNext_onlyLink (s : State) : OnlyLink s (takeNext s) := by
  unfold takeNext beginSend drive
  repeat' first | exact Eq.refl _ | split

theorem takeNext_linkSame (s : State) : LinkSame s (takeNext s) := by
  unfold takeNext beginSend drive
  repeat' first | exact LinkSame.rfl | split
  all_goals constructor <;> exact Eq.refl _

/-- While a frame is being sent nothing is taken. -/
theorem takeNext_of_sending {s : State} (h : s.lnk.tx ≠ none) : takeNext s = s := by
  unfold takeNext
  split
  · exact Eq.refl _
  · contradiction

/-- While a reply is to be sent the transmitter takes no notice: the frames to be sent stay the same. -/
theorem takeNext_outgoing {s : State} (h : outgoing s ≠ []) : outgoing (takeNext s) = outgoing s := by
  unfold takeNext
  split
  · exact Eq.refl _
  · rename_i e
    split
    · rename_i f rest e'
      simp [outgoing, beginSend, drive, e, e']
    · rename_i e'
      simp [outgoing, e, e'] at h

theorem nextNotice_eq_none {ns : List Notice} (h : nextNotice ns = none) : ns = [] := by
  cases ns with
  | nil => exact Eq.refl _
  | cons n ns =>
    unfold nextNotice at h
    split at h
    · cases h
    · split at h <;> cases h

/-- A transmitter left idle leaves nothing to be sent (R178). -/
theorem takeNext_idle {s : State} (h : (takeNext s).lnk.tx = none) :
    takeNext s = s ∧ s.lnk.replies = [] ∧ s.lnk.notices = [] := by
  revert h
  unfold takeNext
  split
  · rename_i e
    intro h
    rw [e] at h
    cases h
  · split
    · intro h
      simp [beginSend, drive] at h
    · rename_i e
      split
      · intro h
        simp [beginSend, drive] at h
      · rename_i e'
        exact fun _ => ⟨Eq.refl _, e, nextNotice_eq_none e'⟩

/-! ### Waiting requests -/

/-- A request stays waiting while a reset is scheduled or the reply queue is full (R173, R180). -/
theorem carryWaiting_of_held {n : Nat} {s : State}
    (h : s.lnk.waiting = [] ∨ s.lnk.resetPending = true ∨ 4 ≤ s.lnk.replies.length) : carryWaiting n s = s := by
  cases n with
  | zero => exact Eq.refl _
  | succ n =>
    unfold carryWaiting
    split
    · rename_i r rest e
      split
      · rename_i k
        rcases h with h | h | h
        · rw [h] at e; cases e
        · rw [h] at k; cases k.1
        · omega
      · exact Eq.refl _
    · exact Eq.refl _

/-- The oldest waiting request is carried out (R173). -/
theorem carryWaiting_cons {n : Nat} {s : State} {r : Request} {rest : List Request} (e : s.lnk.waiting = r :: rest)
    (p : s.lnk.resetPending = false) (q : s.lnk.replies.length < 4) :
    carryWaiting (n + 1) s = carryWaiting n (quiesce (carryOut r (s.setLnk { s.lnk with waiting := rest }))) := by
  rw [carryWaiting]
  split
  · rename_i r' rest' e'
    rw [e] at e'
    injection e' with e1 e2
    rw [if_pos ⟨p, q⟩, e1, e2]
  · rename_i e'
    rw [e] at e'
    cases e'

/-- The end of an event where no request can be carried out. -/
theorem finish_of_undisturbed {u : State} (h : Undisturbed u) : finish u = takeNext (quiesce u) := by
  have k := quiesce_keeps u
  unfold finish linkService
  rcases h with h | ⟨ht, hr⟩
  · have e : (quiesce u).lnk.waiting = [] := k.lnk.waiting.trans h
    rw [carryWaiting_of_held (Or.inl e)]
    exact carryWaiting_of_held (Or.inl ((takeNext_linkSame _).waiting.trans e))
  · have e : (quiesce u).lnk.resetPending = true ∨ 4 ≤ (quiesce u).lnk.replies.length := by
      rw [k.lnk.resetPending, k.lnk.replies]
      exact hr
    have t : (quiesce u).lnk.tx ≠ none := by
      rw [k.lnk.tx]
      exact ht
    rw [carryWaiting_of_held (Or.inr e), takeNext_of_sending t, carryWaiting_of_held (Or.inr e)]

/-- The relation of `Calm` leaves LNK undisturbed. -/
theorem Calm.undisturbed {s t : State} (k : Calm s t) (h : Undisturbed s) : Undisturbed t := by
  unfold Undisturbed
  rw [k.lnk.waiting, k.lnk.tx, k.lnk.resetPending, k.lnk.replies]
  exact h

/-- An event: what its effect leaves is kept by the end of the event. -/
theorem event_settles {effect : State → State} {s : State} (h : Undisturbed (effect (begin s))) :
    ∃ t, event effect s = .next t ∧ Settles (effect (begin s)) t ∧ LinkSame (effect (begin s)) t := by
  refine ⟨_, Eq.refl _, ?_⟩
  rw [finish_of_undisturbed h]
  have k := quiesce_keeps (effect (begin s))
  exact ⟨(k.toSettles.trans (takeNext_onlyLink _).settles).trans (onlyLink_driveFeeds _ _).settles,
    (k.linkSame.trans (takeNext_linkSame _)).trans (linkSame_driveFeeds _ _)⟩

/-- An event that calls for no test: beside LNK nothing changes but by its effect. -/
theorem event_onlyLink {effect : State → State} {s : State} (h : Undisturbed (effect (begin s)))
    (d : (effect (begin s)).due = Due.none) :
    ∃ t, event effect s = .next t ∧ OnlyLink (effect (begin s)) t ∧ LinkSame (effect (begin s)) t := by
  refine ⟨_, Eq.refl _, ?_⟩
  rw [finish_of_undisturbed h]
  refine ⟨?_, ((quiesce_keeps _).linkSame.trans (takeNext_linkSame _)).trans (linkSame_driveFeeds _ _)⟩
  rw [quiesce_of_nothing_due _ d]
  exact ((onlyLink_idleService _).trans (takeNext_onlyLink _)).trans (onlyLink_driveFeeds _ _)

/-! ### The notices of an event -/

theorem NoticesAdded.rfl {s : State} : NoticesAdded s s [] := ⟨[], by simp, Eq.refl _⟩

theorem NoticesAdded.trans {s t u : State} {xs ys : List (NoticeKind × List Byte)} (h : NoticesAdded s t xs)
    (k : NoticesAdded t u ys) : NoticesAdded s u (xs ++ ys) := by
  obtain ⟨n, e, rfl⟩ := h
  obtain ⟨m, e', rfl⟩ := k
  exact ⟨n ++ m, by rw [e', e, List.append_assoc], by simp⟩

/-- What the tests at the end of an event keep: they add notices of their own kinds alone. -/
theorem Keeps.noticesAdded {s t : State} (k : Keeps s t) :
    ∃ later, NoticesAdded s t later ∧ ∀ x ∈ later, x.1.ofTests = true := by
  obtain ⟨new, e, h⟩ := k.lnk.raised
  refine ⟨_, ⟨new, e, Eq.refl _⟩, fun x hx => ?_⟩
  obtain ⟨n, hn, rfl⟩ := List.mem_map.mp hx
  exact h n hn

/-- A notice given to an LNK with room at a priority above 0 is added (R177). -/
theorem sendNotice_noticesAdded {k : NoticeKind} {s : State} (body : List Byte) (r : s.lnk.notices.length < 32)
    (p : s.set.settings.noticePriorities.getD k.index 0 ≠ 0) : NoticesAdded s (sendNotice k body s) [(k, body)] := by
  unfold sendNotice
  rw [if_neg p, if_pos r]
  exact ⟨[_], Eq.refl _, Eq.refl _⟩

/-- The low-mark test adds MAG_LOW where it is due, and nothing else (R88). -/
theorem lowMarkTest_noticesAdded {m : Mag} {s : State} (r : s.lnk.notices.length < 32)
    (p : s.set.settings.noticePriorities.getD NoticeKind.magLow.index 0 ≠ 0) :
    NoticesAdded s (lowMarkTest m s) (magLowNotice s m (s.web.mag m).lowReported (s.web.mag m).remaining) := by
  unfold lowMarkTest magLowNotice
  by_cases h : (s.web.mag m).remaining < s.set.settings.lowMark ∧ (s.web.mag m).lowReported = false
  · rw [if_pos h]
    simp only [h, and_self, if_true]
    have keep : ∀ q, NoticesAdded s (s.setMag m q) [] := fun q => ⟨[], (List.append_nil _).symm, Eq.refl _⟩
    exact (keep _).trans (sendNotice_noticesAdded _ r p)
  · rw [if_neg h]
    simp only [h, if_false]
    exact NoticesAdded.rfl

/-- The end of an event while a frame is being sent adds the notices of the tests alone. -/
theorem event_noticesAdded {effect : State → State} {s : State} {xs : List (NoticeKind × List Byte)}
    (h : Undisturbed (effect (begin s))) (tx : (effect (begin s)).lnk.tx ≠ none)
    (x : NoticesAdded s (effect (begin s)) xs) : ∃ t, event effect s = .next t ∧
      ∃ later, NoticesAdded s t (xs ++ later) ∧ ∀ x ∈ later, x.1.ofTests = true := by
  refine ⟨_, Eq.refl _, ?_⟩
  have k := quiesce_keeps (effect (begin s))
  rw [finish_of_undisturbed h, takeNext_of_sending (by rw [k.lnk.tx]; exact tx)]
  obtain ⟨later, ⟨new, e, e'⟩, hl⟩ := k.noticesAdded
  exact ⟨later, x.trans ⟨new, by rw [driveFeeds_lnk]; exact e, e'⟩, hl⟩

/-! ### A request that arrives -/

theorem onlyLink_asAsked (s : State) : OnlyLink s (asAsked s) := Eq.refl _

theorem onlyLink_answer (r : Request) (body : List Byte) (b : Bool) (s : State) :
    OnlyLink s (pushReply r body b (restartIdle s)) := Eq.refl _

/-- A request LNK takes is carried out, then the tests it called for are made and the transmitter takes its next frame
(R173, R174, R178). -/
theorem request_taken {kind tag : Byte} {body : List Byte} {s : State} (h : Takes s) (hk : kind.msb = false)
    (hb : body.length ≤ maxStationBody) (hl : lengthFits kind.toNat body = true)
    (hw : (ownerAnswer kind.toNat body (asAsked s)).1.lnk.waiting = []) :
    request kind tag body s = .next (driveFeeds s (takeNext (quiesce (pushReply ⟨kind, tag, body⟩
      (ownerAnswer kind.toNat body (asAsked s)).2 (kind == 0x3C#8)
      (restartIdle (ownerAnswer kind.toNat body (asAsked s)).1))))) := by
  have e1 : quiesce (takeStationFrame ⟨kind, tag, body⟩ (begin s)) =
      (asAsked s).setLnk { (asAsked s).lnk with waiting := [⟨kind, tag, body⟩] } := by
    rw [quiesce_of_nothing_due]
    · unfold takeStationFrame
      simp only [hk]
      have w : (begin s).lnk.waiting = [] := h.waiting
      simp only [w]
      exact Eq.refl _
    · unfold takeStationFrame
      simp only [hk]
      have w : (begin s).lnk.waiting = [] := h.waiting
      simp only [w]
      exact Eq.refl _
  have e2 : ((asAsked s).setLnk { (asAsked s).lnk with waiting := [] }) = asAsked s := by
    have w : s.lnk.waiting = [] := h.waiting
    unfold asAsked idleService begin State.setLnk State.setPorts State.setDue
    simp [w]
  unfold request event
  simp only [hb, if_true]
  unfold finish linkService
  rw [e1]
  have c (r : Request) : carryWaiting 2 ((asAsked s).setLnk { (asAsked s).lnk with waiting := [r] }) =
      carryWaiting 1 (quiesce (carryOut r (asAsked s))) := by
    have k := carryWaiting_cons (n := 1) (r := r) (rest := [])
      (s := (asAsked s).setLnk { (asAsked s).lnk with waiting := [r] }) (Eq.refl _) h.noReset h.room
    exact k.trans (congrArg _ (congrArg quiesce (congrArg (carryOut r) e2)))
  rw [c]
  have o : carryOut ⟨kind, tag, body⟩ (asAsked s) = pushReply ⟨kind, tag, body⟩
      (ownerAnswer kind.toNat body (asAsked s)).2 (kind == 0x3C#8)
      (restartIdle (ownerAnswer kind.toNat body (asAsked s)).1) := by
    unfold carryOut
    have a : (asAsked s).lnk.power = .active := h.active
    rw [if_neg (by rw [a]; decide), if_pos hl]
  rw [o]
  have w : (quiesce (pushReply ⟨kind, tag, body⟩ (ownerAnswer kind.toNat body (asAsked s)).2 (kind == 0x3C#8)
      (restartIdle (ownerAnswer kind.toNat body (asAsked s)).1))).lnk.waiting = [] :=
    (quiesce_keeps _).lnk.waiting.trans hw
  rw [carryWaiting_of_held (Or.inl w), carryWaiting_of_held (Or.inl ((takeNext_linkSame _).waiting.trans w))]

/-- A request LNK takes is answered with one reply, and its owner's effect is kept by the end of the event. -/
theorem request_answered {kind tag : Byte} {body : List Byte} {s : State} (h : Takes s) (hk : kind.msb = false)
    (hb : body.length ≤ maxStationBody) (hl : lengthFits kind.toNat body = true)
    (hw : (ownerAnswer kind.toNat body (asAsked s)).1.lnk.waiting = [])
    (hr : (ownerAnswer kind.toNat body (asAsked s)).1.lnk.replies = s.lnk.replies)
    (ht : (ownerAnswer kind.toNat body (asAsked s)).1.lnk.tx = s.lnk.tx) :
    ∃ t, request kind tag body s = .next t ∧
      Replies s t (replyTo kind tag (ownerAnswer kind.toNat body (asAsked s)).2) ∧
      Settles (ownerAnswer kind.toNat body (asAsked s)).1 t ∧
      LinkSame (ownerAnswer kind.toNat body (asAsked s)).1 t := by
  refine ⟨_, request_taken h hk hb hl hw, ?_⟩
  generalize hx : ownerAnswer kind.toNat body (asAsked s) = a at *
  have k := quiesce_keeps (pushReply ⟨kind, tag, body⟩ a.2 (kind == 0x3C#8) (restartIdle a.1))
  have o : outgoing (pushReply ⟨kind, tag, body⟩ a.2 (kind == 0x3C#8) (restartIdle a.1)) =
      outgoing s ++ [replyTo kind tag a.2] := by
    show a.1.lnk.tx.toList ++ (a.1.lnk.replies ++ [_]) = _
    rw [ht, hr, ← List.append_assoc]
    exact Eq.refl _
  refine ⟨?_, ?_, ?_⟩
  · unfold Replies
    rw [driveFeeds_outgoing, takeNext_outgoing, k.outgoing, o]
    rw [k.outgoing, o]
    simp
  · exact Settles.trans (Settles.trans (Settles.trans (onlyLink_answer _ _ _ _).settles k.toSettles)
      (takeNext_onlyLink _).settles) (onlyLink_driveFeeds _ _).settles
  · exact LinkSame.trans (LinkSame.trans (LinkSame.trans (by constructor <;> exact Eq.refl _) k.linkSame)
      (takeNext_linkSame _)) (linkSame_driveFeeds _ _)

/-- The same for a request whose owner calls for no test: nothing but LNK changes beyond the owner's effect. -/
theorem request_onlyLink {kind tag : Byte} {body : List Byte} {s : State} (h : Takes s) (hk : kind.msb = false)
    (hb : body.length ≤ maxStationBody) (hl : lengthFits kind.toNat body = true)
    (hw : (ownerAnswer kind.toNat body (asAsked s)).1.lnk.waiting = [])
    (hr : (ownerAnswer kind.toNat body (asAsked s)).1.lnk.replies = s.lnk.replies)
    (ht : (ownerAnswer kind.toNat body (asAsked s)).1.lnk.tx = s.lnk.tx)
    (hd : (ownerAnswer kind.toNat body (asAsked s)).1.due = Due.none) :
    ∃ t, request kind tag body s = .next t ∧
      Replies s t (replyTo kind tag (ownerAnswer kind.toNat body (asAsked s)).2) ∧
      OnlyLink (ownerAnswer kind.toNat body (asAsked s)).1 t ∧
      LinkSame (ownerAnswer kind.toNat body (asAsked s)).1 t := by
  obtain ⟨t, e, r, _, l⟩ := request_answered (tag := tag) h hk hb hl hw hr ht
  refine ⟨t, e, r, ?_, l⟩
  rw [request_taken h hk hb hl hw] at e
  injection e with e
  rw [← e, quiesce_of_nothing_due (pushReply _ _ _ (restartIdle _)) hd]
  exact (((onlyLink_answer _ _ _ _).trans (onlyLink_idleService _)).trans (takeNext_onlyLink _)).trans
    (onlyLink_driveFeeds _ _)

end Sys2Proof.Machine
end

