-- ==== Sys2Proof/Laws/Frames.lean ====
section
/-!
SUPPORT. The frame of each shared operation: the blocks and the fields of blocks that it leaves as they were.
-/
namespace Sys2Proof.Machine

@[simp] theorem drive_frame (p : PortOut) (s : State) :
    (drive p s).lnk = s.lnk ∧ (drive p s).ort = s.ort ∧ (drive p s).sch = s.sch ∧ (drive p s).ifu = s.ifu ∧
    (drive p s).exu = s.exu ∧ (drive p s).web = s.web ∧ (drive p s).cut = s.cut ∧ (drive p s).srt = s.srt ∧
    (drive p s).prc = s.prc ∧ (drive p s).set = s.set ∧ (drive p s).free = s.free ∧
    (drive p s).pending = s.pending := by
  simp [drive]

@[simp] theorem owePass_frame (s : State) :
    (owePass s).lnk = s.lnk ∧ (owePass s).ort = s.ort ∧ (owePass s).sch = s.sch ∧ (owePass s).ifu = s.ifu ∧
    (owePass s).exu = s.exu ∧ (owePass s).web = s.web ∧ (owePass s).cut = s.cut ∧ (owePass s).srt = s.srt ∧
    (owePass s).prc = s.prc ∧ (owePass s).set = s.set ∧ (owePass s).free = s.free ∧
    (owePass s).pending = s.pending := by
  simp [owePass]

@[simp] theorem oweRun_frame (s : State) :
    (oweRun s).lnk = s.lnk ∧ (oweRun s).ort = s.ort ∧ (oweRun s).sch = s.sch ∧ (oweRun s).ifu = s.ifu ∧
    (oweRun s).exu = s.exu ∧ (oweRun s).web = s.web ∧ (oweRun s).cut = s.cut ∧ (oweRun s).srt = s.srt ∧
    (oweRun s).prc = s.prc ∧ (oweRun s).set = s.set ∧ (oweRun s).free = s.free ∧ (oweRun s).pending = s.pending := by
  simp [oweRun]

@[simp] theorem oweWindow_frame (s : State) :
    (oweWindow s).lnk = s.lnk ∧ (oweWindow s).ort = s.ort ∧ (oweWindow s).sch = s.sch ∧ (oweWindow s).ifu = s.ifu ∧
    (oweWindow s).exu = s.exu ∧ (oweWindow s).web = s.web ∧ (oweWindow s).cut = s.cut ∧ (oweWindow s).srt = s.srt ∧
    (oweWindow s).prc = s.prc ∧ (oweWindow s).set = s.set ∧ (oweWindow s).free = s.free ∧
    (oweWindow s).pending = s.pending := by
  simp [oweWindow]

@[simp] theorem oweFlush_frame (s : State) :
    (oweFlush s).lnk = s.lnk ∧ (oweFlush s).ort = s.ort ∧ (oweFlush s).sch = s.sch ∧ (oweFlush s).ifu = s.ifu ∧
    (oweFlush s).exu = s.exu ∧ (oweFlush s).web = s.web ∧ (oweFlush s).cut = s.cut ∧ (oweFlush s).srt = s.srt ∧
    (oweFlush s).prc = s.prc ∧ (oweFlush s).set = s.set ∧ (oweFlush s).free = s.free ∧
    (oweFlush s).pending = s.pending := by
  simp [oweFlush]

@[simp] theorem oweAsk_frame (s : State) :
    (oweAsk s).lnk = s.lnk ∧ (oweAsk s).ort = s.ort ∧ (oweAsk s).sch = s.sch ∧ (oweAsk s).ifu = s.ifu ∧
    (oweAsk s).exu = s.exu ∧ (oweAsk s).web = s.web ∧ (oweAsk s).cut = s.cut ∧ (oweAsk s).srt = s.srt ∧
    (oweAsk s).prc = s.prc ∧ (oweAsk s).set = s.set ∧ (oweAsk s).free = s.free ∧ (oweAsk s).pending = s.pending := by
  simp [oweAsk]

@[simp] theorem oweQueue_frame (s : State) :
    (oweQueue s).lnk = s.lnk ∧ (oweQueue s).ort = s.ort ∧ (oweQueue s).sch = s.sch ∧ (oweQueue s).ifu = s.ifu ∧
    (oweQueue s).exu = s.exu ∧ (oweQueue s).web = s.web ∧ (oweQueue s).cut = s.cut ∧ (oweQueue s).srt = s.srt ∧
    (oweQueue s).prc = s.prc ∧ (oweQueue s).set = s.set ∧ (oweQueue s).free = s.free ∧
    (oweQueue s).pending = s.pending := by
  simp [oweQueue]

@[simp] theorem sendNotice_frame (k : NoticeKind) (body : List Byte) (s : State) :
    (sendNotice k body s).ort = s.ort ∧ (sendNotice k body s).sch = s.sch ∧ (sendNotice k body s).ifu = s.ifu ∧
    (sendNotice k body s).exu = s.exu ∧ (sendNotice k body s).web = s.web ∧ (sendNotice k body s).cut = s.cut ∧
    (sendNotice k body s).srt = s.srt ∧ (sendNotice k body s).prc = s.prc ∧ (sendNotice k body s).set = s.set ∧
    (sendNotice k body s).free = s.free ∧ (sendNotice k body s).pending = s.pending := by
  unfold sendNotice; dsimp only
  (repeat' apply And.intro) <;> (repeat' (first | exact Eq.refl _ | (simp; done) | split))

@[simp] theorem setMag_frame (s : State) (m : Mag) (r : MagRecord) :
    (State.setMag s m r).lnk = s.lnk ∧ (State.setMag s m r).ort = s.ort ∧ (State.setMag s m r).sch = s.sch ∧
    (State.setMag s m r).ifu = s.ifu ∧ (State.setMag s m r).exu = s.exu ∧ (State.setMag s m r).cut = s.cut ∧
    (State.setMag s m r).srt = s.srt ∧ (State.setMag s m r).prc = s.prc ∧ (State.setMag s m r).set = s.set ∧
    (State.setMag s m r).free = s.free ∧ (State.setMag s m r).pending = s.pending := by
  simp [State.setMag]

@[simp] theorem setMark_frame (s : State) (m : Mag) (k : StripMark) :
    (State.setMark s m k).lnk = s.lnk ∧ (State.setMark s m k).ort = s.ort ∧ (State.setMark s m k).ifu = s.ifu ∧
    (State.setMark s m k).exu = s.exu ∧ (State.setMark s m k).web = s.web ∧ (State.setMark s m k).cut = s.cut ∧
    (State.setMark s m k).srt = s.srt ∧ (State.setMark s m k).prc = s.prc ∧ (State.setMark s m k).set = s.set ∧
    (State.setMark s m k).free = s.free ∧ (State.setMark s m k).pending = s.pending := by
  simp [State.setMark]

@[simp] theorem setOrder_frame (s : State) (slot : Nat) (o : Option Order) :
    (State.setOrder s slot o).lnk = s.lnk ∧ (State.setOrder s slot o).sch = s.sch ∧
    (State.setOrder s slot o).ifu = s.ifu ∧ (State.setOrder s slot o).exu = s.exu ∧
    (State.setOrder s slot o).web = s.web ∧ (State.setOrder s slot o).cut = s.cut ∧
    (State.setOrder s slot o).srt = s.srt ∧ (State.setOrder s slot o).prc = s.prc ∧
    (State.setOrder s slot o).set = s.set ∧ (State.setOrder s slot o).free = s.free ∧
    (State.setOrder s slot o).pending = s.pending ∧ (State.setOrder s slot o).ort.seq = s.ort.seq := by
  simp [State.setOrder]

@[simp] theorem updEntry_frame (n : Nat) (f : WebEntry → WebEntry) (s : State) :
    (updEntry n f s).lnk = s.lnk ∧ (updEntry n f s).ort = s.ort ∧ (updEntry n f s).sch = s.sch ∧
    (updEntry n f s).ifu = s.ifu ∧ (updEntry n f s).exu = s.exu ∧ (updEntry n f s).cut = s.cut ∧
    (updEntry n f s).srt = s.srt ∧ (updEntry n f s).prc = s.prc ∧ (updEntry n f s).set = s.set ∧
    (updEntry n f s).free = s.free ∧ (updEntry n f s).pending = s.pending ∧ (updEntry n f s).web.run = s.web.run ∧
    (updEntry n f s).web.active = s.web.active ∧ (updEntry n f s).web.threading = s.web.threading ∧
    (updEntry n f s).web.fIn = s.web.fIn ∧ (updEntry n f s).web.c = s.web.c ∧
    (updEntry n f s).web.state = s.web.state ∧ (updEntry n f s).web.ask = s.web.ask ∧
    (updEntry n f s).web.flush = s.web.flush ∧ (updEntry n f s).web.flushTimer = s.web.flushTimer ∧
    (updEntry n f s).web.magA = s.web.magA ∧ (updEntry n f s).web.magB = s.web.magB := by
  simp [updEntry]

@[simp] theorem releaseFrame_frame (n : Nat) (s : State) :
    (releaseFrame n s).lnk = s.lnk ∧ (releaseFrame n s).ort = s.ort ∧ (releaseFrame n s).sch = s.sch ∧
    (releaseFrame n s).exu = s.exu ∧ (releaseFrame n s).web = s.web ∧ (releaseFrame n s).cut = s.cut ∧
    (releaseFrame n s).srt = s.srt ∧ (releaseFrame n s).prc = s.prc ∧ (releaseFrame n s).set = s.set ∧
    (releaseFrame n s).free = s.free ∧ (releaseFrame n s).pending = s.pending ∧
    (releaseFrame n s).ifu.current = s.ifu.current := by
  simp [releaseFrame]

@[simp] theorem setHead_frame (h : HeadState) (s : State) :
    (setHead h s).lnk = s.lnk ∧ (setHead h s).ort = s.ort ∧ (setHead h s).sch = s.sch ∧ (setHead h s).ifu = s.ifu ∧
    (setHead h s).web = s.web ∧ (setHead h s).cut = s.cut ∧ (setHead h s).srt = s.srt ∧ (setHead h s).prc = s.prc ∧
    (setHead h s).set = s.set ∧ (setHead h s).free = s.free ∧ (setHead h s).pending = s.pending := by
  simp [setHead]

@[simp] theorem stopCutterFeed_frame (s : State) :
    (stopCutterFeed s).lnk = s.lnk ∧ (stopCutterFeed s).ort = s.ort ∧ (stopCutterFeed s).sch = s.sch ∧
    (stopCutterFeed s).ifu = s.ifu ∧ (stopCutterFeed s).exu = s.exu ∧ (stopCutterFeed s).web = s.web ∧
    (stopCutterFeed s).srt = s.srt ∧ (stopCutterFeed s).prc = s.prc ∧ (stopCutterFeed s).set = s.set ∧
    (stopCutterFeed s).free = s.free ∧ (stopCutterFeed s).pending = s.pending ∧
    (stopCutterFeed s).cut.offset = s.cut.offset ∧ (stopCutterFeed s).cut.missCount = s.cut.missCount ∧
    (stopCutterFeed s).cut.nextCut = s.cut.nextCut ∧ (stopCutterFeed s).cut.markRun = s.cut.markRun ∧
    (stopCutterFeed s).cut.gaps = s.cut.gaps ∧ (stopCutterFeed s).cut.carried = s.cut.carried ∧
    (stopCutterFeed s).cut.leadingMade = s.cut.leadingMade ∧ (stopCutterFeed s).cut.abandoned = s.cut.abandoned := by
  simp [stopCutterFeed]

@[simp] theorem disarmFlush_frame (s : State) :
    (disarmFlush s).lnk = s.lnk ∧ (disarmFlush s).ort = s.ort ∧ (disarmFlush s).sch = s.sch ∧
    (disarmFlush s).ifu = s.ifu ∧ (disarmFlush s).exu = s.exu ∧ (disarmFlush s).cut = s.cut ∧
    (disarmFlush s).srt = s.srt ∧ (disarmFlush s).prc = s.prc ∧ (disarmFlush s).set = s.set ∧
    (disarmFlush s).free = s.free ∧ (disarmFlush s).pending = s.pending ∧ (disarmFlush s).web.map = s.web.map ∧
    (disarmFlush s).web.run = s.web.run ∧ (disarmFlush s).web.active = s.web.active ∧
    (disarmFlush s).web.threading = s.web.threading ∧ (disarmFlush s).web.fIn = s.web.fIn ∧
    (disarmFlush s).web.c = s.web.c ∧ (disarmFlush s).web.state = s.web.state ∧ (disarmFlush s).web.ask = s.web.ask ∧
    (disarmFlush s).web.flush = s.web.flush ∧ (disarmFlush s).web.magA = s.web.magA ∧
    (disarmFlush s).web.magB = s.web.magB := by
  simp [disarmFlush]

@[simp] theorem updGap_frame (f : GapRecord → GapRecord) (s : State) :
    (updGap f s).lnk = s.lnk ∧ (updGap f s).ort = s.ort ∧ (updGap f s).sch = s.sch ∧
    (updGap f s).ifu = s.ifu ∧ (updGap f s).exu = s.exu ∧ (updGap f s).web = s.web ∧
    (updGap f s).srt = s.srt ∧ (updGap f s).prc = s.prc ∧ (updGap f s).set = s.set ∧
    (updGap f s).free = s.free ∧ (updGap f s).pending = s.pending ∧
    (updGap f s).cut.state = s.cut.state ∧ (updGap f s).cut.offset = s.cut.offset ∧
    (updGap f s).cut.missCount = s.cut.missCount ∧ (updGap f s).cut.nextCut = s.cut.nextCut ∧
    (updGap f s).cut.markRun = s.cut.markRun ∧ (updGap f s).cut.leadingMade = s.cut.leadingMade ∧
    (updGap f s).cut.abandoned = s.cut.abandoned := by
  unfold updGap; split <;> simp

@[simp] theorem cutNewWeb_frame (s : State) :
    (cutNewWeb s).lnk = s.lnk ∧ (cutNewWeb s).ort = s.ort ∧ (cutNewWeb s).sch = s.sch ∧ (cutNewWeb s).ifu = s.ifu ∧
    (cutNewWeb s).exu = s.exu ∧ (cutNewWeb s).web = s.web ∧ (cutNewWeb s).srt = s.srt ∧ (cutNewWeb s).prc = s.prc ∧
    (cutNewWeb s).set = s.set ∧ (cutNewWeb s).free = s.free ∧ (cutNewWeb s).pending = s.pending := by
  unfold cutNewWeb; (repeat' split) <;> simp

@[simp] theorem updBin_frame (b : Nat) (f : OrderBin → OrderBin) (s : State) :
    (updBin b f s).lnk = s.lnk ∧ (updBin b f s).ort = s.ort ∧ (updBin b f s).sch = s.sch ∧
    (updBin b f s).ifu = s.ifu ∧ (updBin b f s).exu = s.exu ∧ (updBin b f s).web = s.web ∧
    (updBin b f s).cut = s.cut ∧ (updBin b f s).prc = s.prc ∧ (updBin b f s).set = s.set ∧
    (updBin b f s).free = s.free ∧ (updBin b f s).pending = s.pending ∧ (updBin b f s).srt.transit = s.srt.transit ∧
    (updBin b f s).srt.overflow = s.srt.overflow ∧ (updBin b f s).srt.reject = s.srt.reject ∧
    (updBin b f s).srt.state = s.srt.state ∧ (updBin b f s).srt.dropping = s.srt.dropping ∧
    (updBin b f s).srt.windows = s.srt.windows := by
  simp [updBin]

@[simp] theorem holdingOpen_frame (b : Nat) (s : State) :
    (holdingOpen b s).lnk = s.lnk ∧ (holdingOpen b s).ort = s.ort ∧ (holdingOpen b s).sch = s.sch ∧
    (holdingOpen b s).ifu = s.ifu ∧ (holdingOpen b s).exu = s.exu ∧ (holdingOpen b s).web = s.web ∧
    (holdingOpen b s).cut = s.cut ∧ (holdingOpen b s).prc = s.prc ∧ (holdingOpen b s).set = s.set ∧
    (holdingOpen b s).free = s.free ∧ (holdingOpen b s).pending = s.pending := by
  unfold holdingOpen; dsimp only
  (repeat' apply And.intro) <;> (repeat' (first | exact Eq.refl _ | (simp; done) | split))

@[simp] theorem sorterRestart_frame (s : State) :
    (sorterRestart s).lnk = s.lnk ∧ (sorterRestart s).ort = s.ort ∧ (sorterRestart s).sch = s.sch ∧
    (sorterRestart s).ifu = s.ifu ∧ (sorterRestart s).exu = s.exu ∧ (sorterRestart s).web = s.web ∧
    (sorterRestart s).cut = s.cut ∧ (sorterRestart s).prc = s.prc ∧ (sorterRestart s).set = s.set ∧
    (sorterRestart s).free = s.free ∧ (sorterRestart s).pending = s.pending ∧
    (sorterRestart s).srt.transit = s.srt.transit ∧ (sorterRestart s).srt.bins = s.srt.bins ∧
    (sorterRestart s).srt.overflow = s.srt.overflow ∧ (sorterRestart s).srt.reject = s.srt.reject ∧
    (sorterRestart s).srt.dropping = s.srt.dropping ∧ (sorterRestart s).srt.windows = s.srt.windows := by
  simp [sorterRestart]

@[simp] theorem noteDiscard_frame (p : Piece) (s : State) :
    (noteDiscard p s).lnk = s.lnk ∧ (noteDiscard p s).ort = s.ort ∧ (noteDiscard p s).sch = s.sch ∧
    (noteDiscard p s).ifu = s.ifu ∧ (noteDiscard p s).exu = s.exu ∧ (noteDiscard p s).web = s.web ∧
    (noteDiscard p s).cut = s.cut ∧ (noteDiscard p s).prc = s.prc ∧ (noteDiscard p s).set = s.set ∧
    (noteDiscard p s).free = s.free ∧ (noteDiscard p s).pending = s.pending ∧
    (noteDiscard p s).srt.transit = s.srt.transit ∧ (noteDiscard p s).srt.bins = s.srt.bins ∧
    (noteDiscard p s).srt.overflow = s.srt.overflow ∧ (noteDiscard p s).srt.reject = s.srt.reject ∧
    (noteDiscard p s).srt.state = s.srt.state ∧ (noteDiscard p s).srt.dropping = s.srt.dropping ∧
    (noteDiscard p s).srt.windows = s.srt.windows := by
  unfold noteDiscard; (repeat' split) <;> simp

@[simp] theorem commitFor_frame (x : Supply) (s : State) :
    (commitFor x s).lnk = s.lnk ∧ (commitFor x s).ort = s.ort ∧ (commitFor x s).ifu = s.ifu ∧
    (commitFor x s).exu = s.exu ∧ (commitFor x s).web = s.web ∧ (commitFor x s).cut = s.cut ∧
    (commitFor x s).srt = s.srt ∧ (commitFor x s).prc = s.prc ∧ (commitFor x s).set = s.set ∧
    (commitFor x s).free = s.free ∧ (commitFor x s).pending = s.pending ∧ (commitFor x s).sch.queue = s.sch.queue ∧
    (commitFor x s).sch.changeover = s.sch.changeover := by
  unfold commitFor; (repeat' split) <;> simp

@[simp] theorem setTag_frame (t : Nat) (x : FetchTag) (s : State) :
    (setTag t x s).lnk = s.lnk ∧ (setTag t x s).ort = s.ort ∧ (setTag t x s).sch = s.sch ∧
    (setTag t x s).exu = s.exu ∧ (setTag t x s).web = s.web ∧ (setTag t x s).cut = s.cut ∧
    (setTag t x s).srt = s.srt ∧ (setTag t x s).prc = s.prc ∧ (setTag t x s).set = s.set ∧
    (setTag t x s).free =
      s.free ∧ (setTag t x s).pending = s.pending ∧ (setTag t x s).ifu.current = s.ifu.current := by
  simp [setTag]

@[simp] theorem setSlot_frame (i : Nat) (x : LineSlot) (s : State) :
    (setSlot i x s).lnk = s.lnk ∧ (setSlot i x s).ort = s.ort ∧ (setSlot i x s).sch = s.sch ∧
    (setSlot i x s).exu = s.exu ∧ (setSlot i x s).web = s.web ∧ (setSlot i x s).cut = s.cut ∧
    (setSlot i x s).srt = s.srt ∧ (setSlot i x s).prc = s.prc ∧ (setSlot i x s).set = s.set ∧
    (setSlot i x s).free = s.free ∧ (setSlot i x s).pending = s.pending ∧
    (setSlot i x s).ifu.current = s.ifu.current ∧ (setSlot i x s).ifu.tags = s.ifu.tags := by
  simp [setSlot]

@[simp] theorem advanceCurrent_frame (k : Nat) (c : Current) (s : State) :
    (advanceCurrent k c s).lnk = s.lnk ∧ (advanceCurrent k c s).ort = s.ort ∧ (advanceCurrent k c s).sch = s.sch ∧
    (advanceCurrent k c s).exu = s.exu ∧ (advanceCurrent k c s).web = s.web ∧ (advanceCurrent k c s).cut = s.cut ∧
    (advanceCurrent k c s).srt = s.srt ∧ (advanceCurrent k c s).prc = s.prc ∧ (advanceCurrent k c s).set = s.set ∧
    (advanceCurrent k c s).free = s.free ∧ (advanceCurrent k c s).pending = s.pending ∧
    (advanceCurrent k c s).ifu.expiries = s.ifu.expiries ∧
    (k + 1 < c.lf → (advanceCurrent k c s).ifu.tags = s.ifu.tags ∧ (advanceCurrent k c s).ifu.slots = s.ifu.slots) := by
  unfold advanceCurrent
  split
  · simp_all
  · simp only [releaseFrame, State.setIfu, true_and]
    omega

@[simp] theorem killInTransit_frame (number : Nat) (s : State) :
    (killInTransit number s).lnk = s.lnk ∧ (killInTransit number s).ort = s.ort ∧
    (killInTransit number s).sch = s.sch ∧ (killInTransit number s).ifu = s.ifu ∧
    (killInTransit number s).exu = s.exu ∧ (killInTransit number s).web = s.web ∧
    (killInTransit number s).cut = s.cut ∧ (killInTransit number s).prc = s.prc ∧
    (killInTransit number s).set = s.set ∧ (killInTransit number s).free = s.free ∧
    (killInTransit number s).pending = s.pending ∧ (killInTransit number s).srt.bins = s.srt.bins ∧
    (killInTransit number s).srt.overflow = s.srt.overflow ∧ (killInTransit number s).srt.reject = s.srt.reject ∧
    (killInTransit number s).srt.state = s.srt.state ∧ (killInTransit number s).srt.dropping = s.srt.dropping ∧
    (killInTransit number s).srt.windows = s.srt.windows := by
  simp [killInTransit]

@[simp] theorem putSetting_frame (id : Nat) (v : Nat) (s : State) :
    (putSetting id v s).lnk = s.lnk ∧ (putSetting id v s).ort = s.ort ∧ (putSetting id v s).sch = s.sch ∧
    (putSetting id v s).ifu = s.ifu ∧ (putSetting id v s).exu = s.exu ∧ (putSetting id v s).web = s.web ∧
    (putSetting id v s).cut = s.cut ∧ (putSetting id v s).srt = s.srt ∧ (putSetting id v s).prc = s.prc ∧
    (putSetting id v s).free = s.free ∧ (putSetting id v s).pending = s.pending := by
  simp [putSetting]

@[simp] theorem saveFault_frame (s : State) :
    (saveFault s).lnk = s.lnk ∧ (saveFault s).ort = s.ort ∧ (saveFault s).sch = s.sch ∧ (saveFault s).ifu = s.ifu ∧
    (saveFault s).exu = s.exu ∧ (saveFault s).web = s.web ∧ (saveFault s).cut = s.cut ∧ (saveFault s).srt = s.srt ∧
    (saveFault s).prc = s.prc ∧ (saveFault s).free = s.free ∧ (saveFault s).pending = s.pending := by
  unfold saveFault; (repeat' split) <;> simp

@[simp] theorem clearStatus_frame (s : State) :
    (clearStatus s).ort = s.ort ∧ (clearStatus s).sch = s.sch ∧ (clearStatus s).exu = s.exu ∧
    (clearStatus s).web = s.web ∧ (clearStatus s).cut = s.cut ∧ (clearStatus s).prc = s.prc ∧
    (clearStatus s).set = s.set ∧ (clearStatus s).pending = s.pending ∧ (clearStatus s).srt.transit = s.srt.transit ∧
    (clearStatus s).srt.bins = s.srt.bins ∧ (clearStatus s).srt.overflow = s.srt.overflow ∧
    (clearStatus s).srt.reject = s.srt.reject ∧ (clearStatus s).srt.state = s.srt.state ∧
    (clearStatus s).srt.dropping = s.srt.dropping ∧ (clearStatus s).ifu.current = s.ifu.current ∧
    (clearStatus s).ifu.tags = s.ifu.tags ∧ (clearStatus s).srt.windows = s.srt.windows := by
  simp [clearStatus]

@[simp] theorem pushReply_frame (r : Request) (body : List Byte) (ofReset : Bool) (s : State) :
    (pushReply r body ofReset s).ort = s.ort ∧ (pushReply r body ofReset s).sch = s.sch ∧
    (pushReply r body ofReset s).ifu = s.ifu ∧ (pushReply r body ofReset s).exu = s.exu ∧
    (pushReply r body ofReset s).web = s.web ∧ (pushReply r body ofReset s).cut = s.cut ∧
    (pushReply r body ofReset s).srt = s.srt ∧ (pushReply r body ofReset s).prc = s.prc ∧
    (pushReply r body ofReset s).set = s.set ∧ (pushReply r body ofReset s).free = s.free ∧
    (pushReply r body ofReset s).pending = s.pending := by
  simp [pushReply]

@[simp] theorem restartIdle_frame (s : State) :
    (restartIdle s).ort = s.ort ∧ (restartIdle s).sch = s.sch ∧ (restartIdle s).ifu = s.ifu ∧
    (restartIdle s).exu = s.exu ∧ (restartIdle s).web = s.web ∧ (restartIdle s).cut = s.cut ∧
    (restartIdle s).srt = s.srt ∧ (restartIdle s).prc = s.prc ∧ (restartIdle s).set = s.set ∧
    (restartIdle s).free = s.free ∧ (restartIdle s).pending = s.pending := by
  simp [restartIdle]

@[simp] theorem begin_frame (s : State) :
    (begin s).lnk = s.lnk ∧ (begin s).ort = s.ort ∧ (begin s).sch = s.sch ∧ (begin s).ifu = s.ifu ∧
    (begin s).exu = s.exu ∧ (begin s).web = s.web ∧ (begin s).cut = s.cut ∧ (begin s).srt = s.srt ∧
    (begin s).prc = s.prc ∧ (begin s).set = s.set ∧ (begin s).free = s.free ∧ (begin s).pending = s.pending := by
  simp [begin]

@[simp] theorem stationFraming_frame (s : State) :
    (stationFraming s).ort = s.ort ∧ (stationFraming s).sch = s.sch ∧ (stationFraming s).ifu = s.ifu ∧
    (stationFraming s).exu = s.exu ∧ (stationFraming s).web = s.web ∧ (stationFraming s).cut = s.cut ∧
    (stationFraming s).srt = s.srt ∧ (stationFraming s).prc = s.prc ∧ (stationFraming s).set = s.set ∧
    (stationFraming s).free = s.free ∧ (stationFraming s).pending = s.pending := by
  simp [stationFraming]

@[simp] theorem imageFraming_frame (s : State) :
    (imageFraming s).ort = s.ort ∧ (imageFraming s).sch = s.sch ∧ (imageFraming s).ifu = s.ifu ∧
    (imageFraming s).exu = s.exu ∧ (imageFraming s).web = s.web ∧ (imageFraming s).cut = s.cut ∧
    (imageFraming s).srt = s.srt ∧ (imageFraming s).prc = s.prc ∧ (imageFraming s).set = s.set ∧
    (imageFraming s).free = s.free ∧ (imageFraming s).pending = s.pending := by
  simp [imageFraming]

@[simp] theorem resetLink_frame (s : State) :
    (resetLink s).ort = s.ort ∧ (resetLink s).sch = s.sch ∧ (resetLink s).ifu = s.ifu ∧ (resetLink s).exu = s.exu ∧
    (resetLink s).web = s.web ∧ (resetLink s).cut = s.cut ∧ (resetLink s).srt = s.srt ∧ (resetLink s).prc = s.prc ∧
    (resetLink s).set = s.set ∧ (resetLink s).free = s.free ∧ (resetLink s).pending = s.pending := by
  simp [resetLink]

@[simp] theorem resetWork_frame (s : State) :
    (resetWork s).lnk = s.lnk ∧ (resetWork s).exu = s.exu ∧ (resetWork s).web = s.web ∧ (resetWork s).cut = s.cut ∧
    (resetWork s).srt = s.srt ∧ (resetWork s).prc = s.prc ∧ (resetWork s).set = s.set ∧ (resetWork s).free = s.free ∧
    (resetWork s).pending = s.pending := by
  simp [resetWork]

@[simp] theorem resetPower_frame (s : State) :
    (resetPower s).ort = s.ort ∧ (resetPower s).sch = s.sch ∧ (resetPower s).ifu = s.ifu ∧
    (resetPower s).exu = s.exu ∧ (resetPower s).web = s.web ∧ (resetPower s).cut = s.cut ∧
    (resetPower s).srt = s.srt ∧ (resetPower s).prc = s.prc ∧ (resetPower s).set = s.set ∧
    (resetPower s).free = s.free ∧ (resetPower s).pending = s.pending := by
  simp [resetPower]

@[simp] theorem oweLeave_frame (s : State) :
    (oweLeave s).lnk = s.lnk ∧ (oweLeave s).ort = s.ort ∧ (oweLeave s).sch = s.sch ∧ (oweLeave s).ifu = s.ifu ∧
    (oweLeave s).exu = s.exu ∧ (oweLeave s).web = s.web ∧ (oweLeave s).cut = s.cut ∧ (oweLeave s).srt = s.srt ∧
    (oweLeave s).prc = s.prc ∧ (oweLeave s).set = s.set ∧ (oweLeave s).free = s.free ∧
    (oweLeave s).pending = s.pending := by
  simp [oweLeave]

@[simp] theorem oweMagazine_frame (s : State) :
    (oweMagazine s).lnk = s.lnk ∧ (oweMagazine s).ort = s.ort ∧ (oweMagazine s).sch = s.sch ∧
    (oweMagazine s).ifu = s.ifu ∧ (oweMagazine s).exu = s.exu ∧ (oweMagazine s).web = s.web ∧
    (oweMagazine s).cut = s.cut ∧ (oweMagazine s).srt = s.srt ∧ (oweMagazine s).prc = s.prc ∧
    (oweMagazine s).set = s.set ∧ (oweMagazine s).free = s.free ∧ (oweMagazine s).pending = s.pending := by
  simp [oweMagazine]

@[simp] theorem endOrder_frame (slot : Nat) (o : Order) (final : OrderState) (outcome : Nat) (s : State) :
    (endOrder slot o final outcome s).sch = s.sch ∧ (endOrder slot o final outcome s).ifu = s.ifu ∧
    (endOrder slot o final outcome s).exu = s.exu ∧ (endOrder slot o final outcome s).web = s.web ∧
    (endOrder slot o final outcome s).cut = s.cut ∧ (endOrder slot o final outcome s).srt = s.srt ∧
    (endOrder slot o final outcome s).prc = s.prc ∧ (endOrder slot o final outcome s).set = s.set ∧
    (endOrder slot o final outcome s).free = s.free ∧ (endOrder slot o final outcome s).pending = s.pending ∧
    (endOrder slot o final outcome s).ort.seq = s.ort.seq := by
  simp [endOrder]

@[simp] theorem applyReport_frame (r : PrintRef) (f : Line → Line) (s : State) :
    (applyReport r f s).lnk = s.lnk ∧ (applyReport r f s).sch = s.sch ∧ (applyReport r f s).ifu = s.ifu ∧
    (applyReport r f s).exu = s.exu ∧ (applyReport r f s).web = s.web ∧ (applyReport r f s).cut = s.cut ∧
    (applyReport r f s).srt = s.srt ∧ (applyReport r f s).prc = s.prc ∧ (applyReport r f s).set = s.set ∧
    (applyReport r f s).free = s.free ∧ (applyReport r f s).pending = s.pending ∧
    (applyReport r f s).ort.seq = s.ort.seq := by
  unfold applyReport; (repeat' split) <;> simp

@[simp] theorem reportCreated_frame (r : PrintRef) (s : State) :
    (reportCreated r s).lnk = s.lnk ∧ (reportCreated r s).sch = s.sch ∧ (reportCreated r s).ifu = s.ifu ∧
    (reportCreated r s).exu = s.exu ∧ (reportCreated r s).web = s.web ∧ (reportCreated r s).cut = s.cut ∧
    (reportCreated r s).srt = s.srt ∧ (reportCreated r s).prc = s.prc ∧ (reportCreated r s).set = s.set ∧
    (reportCreated r s).free = s.free ∧ (reportCreated r s).pending = s.pending ∧
    (reportCreated r s).ort.seq = s.ort.seq := by
  unfold reportCreated; (repeat' split) <;> simp

@[simp] theorem modOrder_frame (number : Nat) (f : Order → Order) (s : State) :
    (modOrder number f s).lnk = s.lnk ∧ (modOrder number f s).sch = s.sch ∧ (modOrder number f s).ifu = s.ifu ∧
    (modOrder number f s).exu = s.exu ∧ (modOrder number f s).web = s.web ∧ (modOrder number f s).cut = s.cut ∧
    (modOrder number f s).srt = s.srt ∧ (modOrder number f s).prc = s.prc ∧ (modOrder number f s).set = s.set ∧
    (modOrder number f s).free = s.free ∧ (modOrder number f s).pending = s.pending ∧
    (modOrder number f s).ort.seq = s.ort.seq := by
  unfold modOrder; (repeat' split) <;> simp

@[simp] theorem abandonSupply_frame (n : Nat) (s : State) :
    (abandonSupply n s).lnk = s.lnk ∧ (abandonSupply n s).ort = s.ort ∧ (abandonSupply n s).sch = s.sch ∧
    (abandonSupply n s).exu = s.exu ∧ (abandonSupply n s).web = s.web ∧ (abandonSupply n s).cut = s.cut ∧
    (abandonSupply n s).srt = s.srt ∧ (abandonSupply n s).prc = s.prc ∧ (abandonSupply n s).set = s.set ∧
    (abandonSupply n s).free = s.free ∧ (abandonSupply n s).pending = s.pending := by
  unfold abandonSupply; (repeat' split) <;> simp

@[simp] theorem clearHeadSupply_frame (n : Nat) (s : State) :
    (clearHeadSupply n s).lnk = s.lnk ∧ (clearHeadSupply n s).ort = s.ort ∧ (clearHeadSupply n s).sch = s.sch ∧
    (clearHeadSupply n s).exu = s.exu ∧ (clearHeadSupply n s).web = s.web ∧ (clearHeadSupply n s).cut = s.cut ∧
    (clearHeadSupply n s).srt = s.srt ∧ (clearHeadSupply n s).prc = s.prc ∧ (clearHeadSupply n s).set = s.set ∧
    (clearHeadSupply n s).free = s.free ∧ (clearHeadSupply n s).pending = s.pending ∧
    (clearHeadSupply n s).ifu.current = s.ifu.current := by
  simp [clearHeadSupply]

@[simp] theorem replaceFrames_frame (number : Nat) (s : State) :
    (replaceFrames number s).lnk = s.lnk ∧ (replaceFrames number s).ort = s.ort ∧
    (replaceFrames number s).ifu = s.ifu ∧ (replaceFrames number s).exu = s.exu ∧
    (replaceFrames number s).web = s.web ∧ (replaceFrames number s).cut = s.cut ∧
    (replaceFrames number s).srt = s.srt ∧ (replaceFrames number s).prc = s.prc ∧
    (replaceFrames number s).set = s.set ∧ (replaceFrames number s).free = s.free ∧
    (replaceFrames number s).pending = s.pending ∧ (replaceFrames number s).sch.changeover = s.sch.changeover := by
  simp [replaceFrames]

@[simp] theorem clearMark_frame (m : Mag) (frame : Nat) (s : State) :
    (clearMark m frame s).lnk = s.lnk ∧ (clearMark m frame s).ort = s.ort ∧ (clearMark m frame s).ifu = s.ifu ∧
    (clearMark m frame s).exu = s.exu ∧ (clearMark m frame s).web = s.web ∧ (clearMark m frame s).cut = s.cut ∧
    (clearMark m frame s).srt = s.srt ∧ (clearMark m frame s).prc = s.prc ∧ (clearMark m frame s).set = s.set ∧
    (clearMark m frame s).free = s.free ∧ (clearMark m frame s).pending = s.pending := by
  unfold clearMark; (repeat' split) <;> simp

@[simp] theorem warmUp_frame (s : State) :
    (warmUp s).lnk = s.lnk ∧ (warmUp s).ort = s.ort ∧ (warmUp s).sch = s.sch ∧ (warmUp s).ifu = s.ifu ∧
    (warmUp s).web = s.web ∧ (warmUp s).cut = s.cut ∧ (warmUp s).srt = s.srt ∧ (warmUp s).prc = s.prc ∧
    (warmUp s).set = s.set ∧ (warmUp s).free = s.free ∧ (warmUp s).pending = s.pending := by
  simp [warmUp]

@[simp] theorem headRunOver_frame (s : State) :
    (headRunOver s).lnk = s.lnk ∧ (headRunOver s).ort = s.ort ∧ (headRunOver s).sch = s.sch ∧
    (headRunOver s).ifu = s.ifu ∧ (headRunOver s).web = s.web ∧ (headRunOver s).cut = s.cut ∧
    (headRunOver s).srt = s.srt ∧ (headRunOver s).prc = s.prc ∧ (headRunOver s).set = s.set ∧
    (headRunOver s).free = s.free ∧ (headRunOver s).pending = s.pending := by
  unfold headRunOver; (repeat' split) <;> simp

@[simp] theorem awake_frame (s : State) :
    (awake s).ort = s.ort ∧ (awake s).sch = s.sch ∧ (awake s).ifu = s.ifu ∧ (awake s).exu = s.exu ∧
    (awake s).web = s.web ∧ (awake s).cut = s.cut ∧ (awake s).srt = s.srt ∧ (awake s).prc = s.prc ∧
    (awake s).set = s.set ∧ (awake s).free = s.free ∧ (awake s).pending = s.pending := by
  unfold awake; (repeat' split) <;> simp

@[simp] theorem lowMarkTest_frame (m : Mag) (s : State) :
    (lowMarkTest m s).ort = s.ort ∧ (lowMarkTest m s).sch = s.sch ∧ (lowMarkTest m s).ifu = s.ifu ∧
    (lowMarkTest m s).exu = s.exu ∧ (lowMarkTest m s).cut = s.cut ∧ (lowMarkTest m s).srt = s.srt ∧
    (lowMarkTest m s).prc = s.prc ∧ (lowMarkTest m s).set = s.set ∧ (lowMarkTest m s).free = s.free ∧
    (lowMarkTest m s).pending = s.pending := by
  unfold lowMarkTest; dsimp only
  (repeat' apply And.intro) <;> (repeat' (first | exact Eq.refl _ | (simp; done) | split))

@[simp] theorem stopFlush_frame (s : State) :
    (stopFlush s).lnk = s.lnk ∧ (stopFlush s).ort = s.ort ∧ (stopFlush s).sch = s.sch ∧ (stopFlush s).ifu = s.ifu ∧
    (stopFlush s).exu = s.exu ∧ (stopFlush s).cut = s.cut ∧ (stopFlush s).srt = s.srt ∧ (stopFlush s).prc = s.prc ∧
    (stopFlush s).set = s.set ∧ (stopFlush s).free = s.free ∧ (stopFlush s).pending = s.pending ∧
    (stopFlush s).web.map = s.web.map ∧ (stopFlush s).web.run = s.web.run ∧ (stopFlush s).web.active = s.web.active ∧
    (stopFlush s).web.threading = s.web.threading ∧ (stopFlush s).web.fIn = s.web.fIn ∧
    (stopFlush s).web.c = s.web.c ∧ (stopFlush s).web.state = s.web.state ∧ (stopFlush s).web.ask = s.web.ask ∧
    (stopFlush s).web.flushTimer = s.web.flushTimer ∧ (stopFlush s).web.magA = s.web.magA ∧
    (stopFlush s).web.magB = s.web.magB := by
  unfold stopFlush; (repeat' split) <;> simp

@[simp] theorem beginFlush_frame (s : State) :
    (beginFlush s).lnk = s.lnk ∧ (beginFlush s).ort = s.ort ∧ (beginFlush s).sch = s.sch ∧
    (beginFlush s).ifu = s.ifu ∧ (beginFlush s).exu = s.exu ∧ (beginFlush s).cut = s.cut ∧
    (beginFlush s).srt = s.srt ∧ (beginFlush s).prc = s.prc ∧ (beginFlush s).set = s.set ∧
    (beginFlush s).free = s.free ∧ (beginFlush s).pending = s.pending ∧ (beginFlush s).web.map = s.web.map ∧
    (beginFlush s).web.run = s.web.run ∧ (beginFlush s).web.active = s.web.active ∧
    (beginFlush s).web.threading = s.web.threading ∧ (beginFlush s).web.fIn = s.web.fIn ∧
    (beginFlush s).web.c = s.web.c ∧ (beginFlush s).web.state = s.web.state ∧ (beginFlush s).web.ask = s.web.ask ∧
    (beginFlush s).web.flushTimer = s.web.flushTimer ∧ (beginFlush s).web.magA = s.web.magA ∧
    (beginFlush s).web.magB = s.web.magB := by
  unfold beginFlush; dsimp only
  (repeat' apply And.intro) <;> (repeat' (first | exact Eq.refl _ | (simp; done) | split))

@[simp] theorem flushArmTest_frame (s : State) :
    (flushArmTest s).lnk = s.lnk ∧ (flushArmTest s).ort = s.ort ∧ (flushArmTest s).sch = s.sch ∧
    (flushArmTest s).ifu = s.ifu ∧ (flushArmTest s).exu = s.exu ∧ (flushArmTest s).cut = s.cut ∧
    (flushArmTest s).srt = s.srt ∧ (flushArmTest s).prc = s.prc ∧ (flushArmTest s).set = s.set ∧
    (flushArmTest s).free = s.free ∧ (flushArmTest s).pending = s.pending ∧ (flushArmTest s).web.map = s.web.map ∧
    (flushArmTest s).web.run = s.web.run ∧ (flushArmTest s).web.active = s.web.active ∧
    (flushArmTest s).web.threading = s.web.threading ∧ (flushArmTest s).web.fIn = s.web.fIn ∧
    (flushArmTest s).web.c = s.web.c ∧ (flushArmTest s).web.state = s.web.state ∧
    (flushArmTest s).web.ask = s.web.ask ∧ (flushArmTest s).web.flush = s.web.flush ∧
    (flushArmTest s).web.magA = s.web.magA ∧ (flushArmTest s).web.magB = s.web.magB := by
  unfold flushArmTest; (repeat' split) <;> simp

@[simp] theorem beginSearch_frame (s : State) :
    (beginSearch s).lnk = s.lnk ∧ (beginSearch s).ort = s.ort ∧ (beginSearch s).sch = s.sch ∧
    (beginSearch s).ifu = s.ifu ∧ (beginSearch s).exu = s.exu ∧ (beginSearch s).web = s.web ∧
    (beginSearch s).srt = s.srt ∧ (beginSearch s).prc = s.prc ∧ (beginSearch s).set = s.set ∧
    (beginSearch s).free = s.free ∧ (beginSearch s).pending = s.pending ∧ (beginSearch s).cut.state = s.cut.state ∧
    (beginSearch s).cut.offset = s.cut.offset ∧ (beginSearch s).cut.missCount = s.cut.missCount ∧
    (beginSearch s).cut.nextCut = s.cut.nextCut ∧ (beginSearch s).cut.markRun = s.cut.markRun ∧
    (beginSearch s).cut.leadingMade = s.cut.leadingMade ∧ (beginSearch s).cut.abandoned = s.cut.abandoned := by
  unfold beginSearch; (repeat' split) <;> simp

@[simp] theorem flagUnregistered_frame (frame : Nat) (s : State) :
    (flagUnregistered frame s).lnk = s.lnk ∧ (flagUnregistered frame s).ort = s.ort ∧
    (flagUnregistered frame s).sch = s.sch ∧ (flagUnregistered frame s).ifu = s.ifu ∧
    (flagUnregistered frame s).exu = s.exu ∧ (flagUnregistered frame s).cut = s.cut ∧
    (flagUnregistered frame s).srt = s.srt ∧ (flagUnregistered frame s).prc = s.prc ∧
    (flagUnregistered frame s).set = s.set ∧ (flagUnregistered frame s).free = s.free ∧
    (flagUnregistered frame s).pending = s.pending ∧ (flagUnregistered frame s).web.run = s.web.run ∧
    (flagUnregistered frame s).web.active = s.web.active ∧
    (flagUnregistered frame s).web.threading = s.web.threading ∧ (flagUnregistered frame s).web.fIn = s.web.fIn ∧
    (flagUnregistered frame s).web.c = s.web.c ∧ (flagUnregistered frame s).web.state = s.web.state ∧
    (flagUnregistered frame s).web.ask = s.web.ask ∧ (flagUnregistered frame s).web.flush = s.web.flush ∧
    (flagUnregistered frame s).web.flushTimer = s.web.flushTimer ∧ (flagUnregistered frame s).web.magA = s.web.magA ∧
    (flagUnregistered frame s).web.magB = s.web.magB := by
  simp [flagUnregistered]

@[simp] theorem cutClear_frame (s : State) :
    (cutClear s).lnk = s.lnk ∧ (cutClear s).ort = s.ort ∧ (cutClear s).sch = s.sch ∧ (cutClear s).ifu = s.ifu ∧
    (cutClear s).exu = s.exu ∧ (cutClear s).web = s.web ∧ (cutClear s).srt = s.srt ∧ (cutClear s).prc = s.prc ∧
    (cutClear s).set = s.set ∧ (cutClear s).free = s.free ∧ (cutClear s).pending = s.pending := by
  simp [cutClear]

@[simp] theorem assignBin_frame (b : Nat) (slot : Nat) (number : Nat) (s : State) :
    (assignBin b slot number s).lnk = s.lnk ∧ (assignBin b slot number s).sch = s.sch ∧
    (assignBin b slot number s).ifu = s.ifu ∧ (assignBin b slot number s).exu = s.exu ∧
    (assignBin b slot number s).web = s.web ∧ (assignBin b slot number s).cut = s.cut ∧
    (assignBin b slot number s).prc = s.prc ∧ (assignBin b slot number s).set = s.set ∧
    (assignBin b slot number s).free = s.free ∧ (assignBin b slot number s).pending = s.pending ∧
    (assignBin b slot number s).srt.transit = s.srt.transit ∧
    (assignBin b slot number s).srt.overflow = s.srt.overflow ∧
    (assignBin b slot number s).srt.reject = s.srt.reject ∧ (assignBin b slot number s).srt.state = s.srt.state ∧
    (assignBin b slot number s).srt.dropping = s.srt.dropping ∧ (assignBin b slot number s).ort.seq = s.ort.seq ∧
    (assignBin b slot number s).srt.windows = s.srt.windows := by
  unfold assignBin; dsimp only
  (repeat' apply And.intro) <;> (repeat' (first | exact Eq.refl _ | (simp; done) | split))

@[simp] theorem holdingFull_frame (b : Nat) (s : State) :
    (holdingFull b s).ort = s.ort ∧ (holdingFull b s).sch = s.sch ∧ (holdingFull b s).ifu = s.ifu ∧
    (holdingFull b s).exu = s.exu ∧ (holdingFull b s).web = s.web ∧ (holdingFull b s).cut = s.cut ∧
    (holdingFull b s).prc = s.prc ∧ (holdingFull b s).set = s.set ∧ (holdingFull b s).free = s.free ∧
    (holdingFull b s).pending = s.pending := by
  unfold holdingFull; dsimp only
  (repeat' apply And.intro) <;> (repeat' (first | exact Eq.refl _ | (simp; done) | split))

@[simp] theorem appendPiece_frame (e : WebEntry) (s : State) :
    (appendPiece e s).lnk = s.lnk ∧ (appendPiece e s).ort = s.ort ∧ (appendPiece e s).sch = s.sch ∧
    (appendPiece e s).ifu = s.ifu ∧ (appendPiece e s).exu = s.exu ∧ (appendPiece e s).web = s.web ∧
    (appendPiece e s).cut = s.cut ∧ (appendPiece e s).prc = s.prc ∧ (appendPiece e s).set = s.set ∧
    (appendPiece e s).free = s.free ∧ (appendPiece e s).pending = s.pending ∧
    (appendPiece e s).srt.bins = s.srt.bins ∧ (appendPiece e s).srt.overflow = s.srt.overflow ∧
    (appendPiece e s).srt.reject = s.srt.reject ∧ (appendPiece e s).srt.state = s.srt.state ∧
    (appendPiece e s).srt.dropping = s.srt.dropping ∧ (appendPiece e s).srt.windows = s.srt.windows := by
  unfold appendPiece; dsimp only
  (repeat' apply And.intro) <;> (repeat' (first | exact Eq.refl _ | (simp; done) | split))

@[simp] theorem startDrop_frame (b : Nat) (s : State) :
    (startDrop b s).lnk = s.lnk ∧ (startDrop b s).ort = s.ort ∧ (startDrop b s).sch = s.sch ∧
    (startDrop b s).ifu = s.ifu ∧ (startDrop b s).exu = s.exu ∧ (startDrop b s).web = s.web ∧
    (startDrop b s).cut = s.cut ∧ (startDrop b s).prc = s.prc ∧ (startDrop b s).set = s.set ∧
    (startDrop b s).free = s.free ∧ (startDrop b s).pending = s.pending ∧ (startDrop b s).srt.bins = s.srt.bins ∧
    (startDrop b s).srt.overflow = s.srt.overflow ∧ (startDrop b s).srt.reject = s.srt.reject ∧
    (startDrop b s).srt.state = s.srt.state ∧ (startDrop b s).srt.windows = s.srt.windows := by
  simp [startDrop]

@[simp] theorem endDrop_frame (s : State) :
    (endDrop s).lnk = s.lnk ∧ (endDrop s).ort = s.ort ∧ (endDrop s).sch = s.sch ∧ (endDrop s).ifu = s.ifu ∧
    (endDrop s).exu = s.exu ∧ (endDrop s).web = s.web ∧ (endDrop s).cut = s.cut ∧ (endDrop s).prc = s.prc ∧
    (endDrop s).set = s.set ∧ (endDrop s).free = s.free ∧ (endDrop s).pending = s.pending ∧
    (endDrop s).srt.transit = s.srt.transit ∧ (endDrop s).srt.bins = s.srt.bins ∧
    (endDrop s).srt.overflow = s.srt.overflow ∧ (endDrop s).srt.reject = s.srt.reject ∧
    (endDrop s).srt.state = s.srt.state ∧ (endDrop s).srt.windows = s.srt.windows := by
  unfold endDrop; (repeat' split) <;> simp

@[simp] theorem sorterFaultNotice_frame (s : State) :
    (sorterFaultNotice s).ort = s.ort ∧ (sorterFaultNotice s).sch = s.sch ∧ (sorterFaultNotice s).ifu = s.ifu ∧
    (sorterFaultNotice s).exu = s.exu ∧ (sorterFaultNotice s).web = s.web ∧ (sorterFaultNotice s).cut = s.cut ∧
    (sorterFaultNotice s).srt = s.srt ∧ (sorterFaultNotice s).prc = s.prc ∧ (sorterFaultNotice s).set = s.set ∧
    (sorterFaultNotice s).free = s.free ∧ (sorterFaultNotice s).pending = s.pending := by
  simp [sorterFaultNotice]

@[simp] theorem holdingBinEvent_frame (b : Nat) (v : Occupancy) (s : State) :
    (holdingBinEvent b v s).lnk = s.lnk ∧ (holdingBinEvent b v s).ort = s.ort ∧ (holdingBinEvent b v s).sch = s.sch ∧
    (holdingBinEvent b v s).ifu = s.ifu ∧ (holdingBinEvent b v s).exu = s.exu ∧ (holdingBinEvent b v s).web = s.web ∧
    (holdingBinEvent b v s).cut = s.cut ∧ (holdingBinEvent b v s).prc = s.prc ∧ (holdingBinEvent b v s).set = s.set ∧
    (holdingBinEvent b v s).free = s.free ∧ (holdingBinEvent b v s).pending = s.pending := by
  unfold holdingBinEvent; dsimp only
  (repeat' apply And.intro) <;> (repeat' (first | exact Eq.refl _ | (simp; done) | split))

@[simp] theorem realignBins_frame (cap : Nat) (s : State) :
    (realignBins cap s).lnk = s.lnk ∧ (realignBins cap s).ort = s.ort ∧ (realignBins cap s).sch = s.sch ∧
    (realignBins cap s).ifu = s.ifu ∧ (realignBins cap s).exu = s.exu ∧ (realignBins cap s).web = s.web ∧
    (realignBins cap s).cut = s.cut ∧ (realignBins cap s).prc = s.prc ∧ (realignBins cap s).set = s.set ∧
    (realignBins cap s).free = s.free ∧ (realignBins cap s).pending = s.pending ∧
    (realignBins cap s).srt.transit = s.srt.transit ∧ (realignBins cap s).srt.overflow = s.srt.overflow ∧
    (realignBins cap s).srt.reject = s.srt.reject ∧ (realignBins cap s).srt.state = s.srt.state ∧
    (realignBins cap s).srt.dropping = s.srt.dropping ∧ (realignBins cap s).srt.windows = s.srt.windows := by
  simp [realignBins]

@[simp] theorem createStrip_frame (m : Mag) (s : State) :
    (createStrip m s).lnk = s.lnk ∧ (createStrip m s).ort = s.ort ∧ (createStrip m s).ifu = s.ifu ∧
    (createStrip m s).exu = s.exu ∧ (createStrip m s).web = s.web ∧ (createStrip m s).cut = s.cut ∧
    (createStrip m s).srt = s.srt ∧ (createStrip m s).prc = s.prc ∧ (createStrip m s).set = s.set ∧
    (createStrip m s).free = s.free ∧ (createStrip m s).pending = s.pending := by
  simp [createStrip]

@[simp] theorem startImageTx_frame (s : State) :
    (startImageTx s).ort = s.ort ∧ (startImageTx s).sch = s.sch ∧ (startImageTx s).ifu = s.ifu ∧
    (startImageTx s).exu = s.exu ∧ (startImageTx s).web = s.web ∧ (startImageTx s).cut = s.cut ∧
    (startImageTx s).srt = s.srt ∧ (startImageTx s).prc = s.prc ∧ (startImageTx s).set = s.set ∧
    (startImageTx s).free = s.free ∧ (startImageTx s).pending = s.pending := by
  unfold startImageTx; (repeat' split) <;> simp

@[simp] theorem commitStrip_frame (s : State) :
    (commitStrip s).lnk = s.lnk ∧ (commitStrip s).ort = s.ort ∧ (commitStrip s).exu = s.exu ∧
    (commitStrip s).web = s.web ∧ (commitStrip s).cut = s.cut ∧ (commitStrip s).srt = s.srt ∧
    (commitStrip s).prc = s.prc ∧ (commitStrip s).set = s.set ∧ (commitStrip s).free = s.free ∧
    (commitStrip s).pending = s.pending ∧ (commitStrip s).ifu.current = s.ifu.current ∧
    (commitStrip s).ifu.tags = s.ifu.tags ∧ (commitStrip s).sch.queue = s.sch.queue ∧
    (commitStrip s).sch.changeover = s.sch.changeover := by
  unfold commitStrip; (repeat' split) <;> simp

@[simp] theorem primeTest_frame (frame : Nat) (s : State) :
    (primeTest frame s).lnk = s.lnk ∧ (primeTest frame s).ort = s.ort ∧ (primeTest frame s).sch = s.sch ∧
    (primeTest frame s).exu = s.exu ∧ (primeTest frame s).web = s.web ∧ (primeTest frame s).cut = s.cut ∧
    (primeTest frame s).srt = s.srt ∧ (primeTest frame s).prc = s.prc ∧ (primeTest frame s).set = s.set ∧
    (primeTest frame s).free = s.free ∧ (primeTest frame s).pending = s.pending ∧
    (primeTest frame s).ifu.current = s.ifu.current ∧ (primeTest frame s).ifu.tags = s.ifu.tags := by
  unfold primeTest; (repeat' split) <;> simp

@[simp] theorem strayData_frame (tag : Nat) (reason : StrayReason) (msg : Option DataMsg) (s : State) :
    (strayData tag reason msg s).ort = s.ort ∧ (strayData tag reason msg s).sch = s.sch ∧
    (strayData tag reason msg s).ifu = s.ifu ∧ (strayData tag reason msg s).exu = s.exu ∧
    (strayData tag reason msg s).web = s.web ∧ (strayData tag reason msg s).cut = s.cut ∧
    (strayData tag reason msg s).srt = s.srt ∧ (strayData tag reason msg s).prc = s.prc ∧
    (strayData tag reason msg s).set = s.set ∧ (strayData tag reason msg s).free = s.free ∧
    (strayData tag reason msg s).pending = s.pending := by
  simp [strayData]

@[simp] theorem untagSlot_frame (i : Nat) (s : State) :
    (untagSlot i s).lnk = s.lnk ∧ (untagSlot i s).ort = s.ort ∧ (untagSlot i s).sch = s.sch ∧
    (untagSlot i s).exu = s.exu ∧ (untagSlot i s).web = s.web ∧ (untagSlot i s).cut = s.cut ∧
    (untagSlot i s).srt = s.srt ∧ (untagSlot i s).prc = s.prc ∧ (untagSlot i s).set = s.set ∧
    (untagSlot i s).free = s.free ∧ (untagSlot i s).pending = s.pending ∧
    (untagSlot i s).ifu.current = s.ifu.current ∧ (untagSlot i s).ifu.tags = s.ifu.tags := by
  unfold untagSlot; (repeat' split) <;> simp

@[simp] theorem endQuarantine_frame (t : Nat) (s : State) :
    (endQuarantine t s).lnk = s.lnk ∧ (endQuarantine t s).ort = s.ort ∧ (endQuarantine t s).sch = s.sch ∧
    (endQuarantine t s).exu = s.exu ∧ (endQuarantine t s).web = s.web ∧ (endQuarantine t s).cut = s.cut ∧
    (endQuarantine t s).srt = s.srt ∧ (endQuarantine t s).prc = s.prc ∧ (endQuarantine t s).set = s.set ∧
    (endQuarantine t s).free = s.free ∧ (endQuarantine t s).pending = s.pending ∧
    (endQuarantine t s).ifu.current = s.ifu.current := by
  unfold endQuarantine; (repeat' split) <;> simp

@[simp] theorem acceptOrder_frame (slot : Nat) (o : Order) (s : State) :
    (acceptOrder slot o s).lnk = s.lnk ∧ (acceptOrder slot o s).sch = s.sch ∧ (acceptOrder slot o s).ifu = s.ifu ∧
    (acceptOrder slot o s).exu = s.exu ∧ (acceptOrder slot o s).web = s.web ∧ (acceptOrder slot o s).cut = s.cut ∧
    (acceptOrder slot o s).srt = s.srt ∧ (acceptOrder slot o s).prc = s.prc ∧ (acceptOrder slot o s).set = s.set ∧
    (acceptOrder slot o s).free = s.free ∧ (acceptOrder slot o s).pending = s.pending := by
  simp [acceptOrder]

@[simp] theorem freeOrder_frame (slot : Nat) (s : State) :
    (freeOrder slot s).lnk = s.lnk ∧ (freeOrder slot s).sch = s.sch ∧ (freeOrder slot s).ifu = s.ifu ∧
    (freeOrder slot s).exu = s.exu ∧ (freeOrder slot s).web = s.web ∧ (freeOrder slot s).cut = s.cut ∧
    (freeOrder slot s).srt = s.srt ∧ (freeOrder slot s).prc = s.prc ∧ (freeOrder slot s).set = s.set ∧
    (freeOrder slot s).free = s.free ∧ (freeOrder slot s).pending = s.pending ∧
    (freeOrder slot s).ort.seq = s.ort.seq := by
  simp [freeOrder]

@[simp] theorem stripCleared_frame (m : Mag) (frame : Nat) (s : State) :
    (stripCleared m frame s).lnk = s.lnk ∧ (stripCleared m frame s).ort = s.ort ∧
    (stripCleared m frame s).ifu = s.ifu ∧ (stripCleared m frame s).exu = s.exu ∧
    (stripCleared m frame s).web = s.web ∧ (stripCleared m frame s).cut = s.cut ∧
    (stripCleared m frame s).srt = s.srt ∧ (stripCleared m frame s).prc = s.prc ∧
    (stripCleared m frame s).set = s.set ∧ (stripCleared m frame s).free = s.free ∧
    (stripCleared m frame s).pending = s.pending := by
  unfold stripCleared; (repeat' split) <;> simp

@[simp] theorem saveStage_frame (s : State) :
    (saveStage s).lnk = s.lnk ∧ (saveStage s).ort = s.ort ∧ (saveStage s).sch = s.sch ∧ (saveStage s).ifu = s.ifu ∧
    (saveStage s).exu = s.exu ∧ (saveStage s).web = s.web ∧ (saveStage s).cut = s.cut ∧ (saveStage s).srt = s.srt ∧
    (saveStage s).prc = s.prc ∧ (saveStage s).free = s.free ∧ (saveStage s).pending = s.pending := by
  unfold saveStage; (repeat' split) <;> simp

@[simp] theorem beginSend_frame (f : OutFrame) (s : State) :
    (beginSend f s).ort = s.ort ∧ (beginSend f s).sch = s.sch ∧ (beginSend f s).ifu = s.ifu ∧
    (beginSend f s).exu = s.exu ∧ (beginSend f s).web = s.web ∧ (beginSend f s).cut = s.cut ∧
    (beginSend f s).srt = s.srt ∧ (beginSend f s).prc = s.prc ∧ (beginSend f s).set = s.set ∧
    (beginSend f s).free = s.free ∧ (beginSend f s).pending = s.pending := by
  simp [beginSend]

@[simp] theorem takeStationFrame_frame (r : Request) (s : State) :
    (takeStationFrame r s).ort = s.ort ∧ (takeStationFrame r s).sch = s.sch ∧ (takeStationFrame r s).ifu = s.ifu ∧
    (takeStationFrame r s).exu = s.exu ∧ (takeStationFrame r s).web = s.web ∧ (takeStationFrame r s).cut = s.cut ∧
    (takeStationFrame r s).srt = s.srt ∧ (takeStationFrame r s).prc = s.prc ∧ (takeStationFrame r s).set = s.set ∧
    (takeStationFrame r s).free = s.free ∧ (takeStationFrame r s).pending = s.pending := by
  unfold takeStationFrame; (repeat' split) <;> simp

@[simp] theorem gapTimeout_frame (l : LinkId) (s : State) :
    (gapTimeout l s).ort = s.ort ∧ (gapTimeout l s).sch = s.sch ∧ (gapTimeout l s).ifu = s.ifu ∧
    (gapTimeout l s).exu = s.exu ∧ (gapTimeout l s).web = s.web ∧ (gapTimeout l s).cut = s.cut ∧
    (gapTimeout l s).srt = s.srt ∧ (gapTimeout l s).prc = s.prc ∧ (gapTimeout l s).set = s.set ∧
    (gapTimeout l s).free = s.free ∧ (gapTimeout l s).pending = s.pending := by
  unfold gapTimeout; (repeat' split) <;> simp

@[simp] theorem startFetchTimer_frame (f : FetchFrame) (s : State) :
    (startFetchTimer f s).lnk = s.lnk ∧ (startFetchTimer f s).ort = s.ort ∧ (startFetchTimer f s).sch = s.sch ∧
    (startFetchTimer f s).exu = s.exu ∧ (startFetchTimer f s).web = s.web ∧ (startFetchTimer f s).cut = s.cut ∧
    (startFetchTimer f s).srt = s.srt ∧ (startFetchTimer f s).prc = s.prc ∧ (startFetchTimer f s).set = s.set ∧
    (startFetchTimer f s).free = s.free ∧ (startFetchTimer f s).pending = s.pending ∧
    (startFetchTimer f s).ifu.current = s.ifu.current := by
  unfold startFetchTimer; (repeat' split) <;> simp

@[simp] theorem enterStandby_frame (s : State) :
    (enterStandby s).ort = s.ort ∧ (enterStandby s).sch = s.sch ∧ (enterStandby s).ifu = s.ifu ∧
    (enterStandby s).cut = s.cut ∧ (enterStandby s).srt = s.srt ∧ (enterStandby s).prc = s.prc ∧
    (enterStandby s).set = s.set ∧ (enterStandby s).free = s.free ∧ (enterStandby s).pending = s.pending ∧
    (enterStandby s).web.map = s.web.map ∧ (enterStandby s).web.run = s.web.run ∧
    (enterStandby s).web.active = s.web.active ∧ (enterStandby s).web.threading = s.web.threading ∧
    (enterStandby s).web.fIn = s.web.fIn ∧ (enterStandby s).web.c = s.web.c ∧
    (enterStandby s).web.state = s.web.state ∧ (enterStandby s).web.ask = s.web.ask ∧
    (enterStandby s).web.magA = s.web.magA ∧ (enterStandby s).web.magB = s.web.magB := by
  simp [enterStandby]

@[simp] theorem headFaultNotice_frame (before : HeadState) (frame : Option Nat) (s : State) :
    (headFaultNotice before frame s).ort = s.ort ∧ (headFaultNotice before frame s).sch = s.sch ∧
    (headFaultNotice before frame s).ifu = s.ifu ∧ (headFaultNotice before frame s).exu = s.exu ∧
    (headFaultNotice before frame s).web = s.web ∧ (headFaultNotice before frame s).cut = s.cut ∧
    (headFaultNotice before frame s).srt = s.srt ∧ (headFaultNotice before frame s).prc = s.prc ∧
    (headFaultNotice before frame s).set = s.set ∧ (headFaultNotice before frame s).free = s.free ∧
    (headFaultNotice before frame s).pending = s.pending := by
  simp [headFaultNotice]

@[simp] theorem beginExposure_frame (f : Frame) (x : ExposureResult) (s : State) :
    (beginExposure f x s).ort = s.ort ∧ (beginExposure f x s).sch = s.sch ∧ (beginExposure f x s).ifu = s.ifu ∧
    (beginExposure f x s).web = s.web ∧ (beginExposure f x s).cut = s.cut ∧ (beginExposure f x s).srt = s.srt ∧
    (beginExposure f x s).prc = s.prc ∧ (beginExposure f x s).set = s.set ∧ (beginExposure f x s).free = s.free ∧
    (beginExposure f x s).pending = s.pending := by
  unfold beginExposure; (repeat' split) <;> simp

@[simp] theorem driveRun_frame (f : Frame) (period : Nat) (s : State) :
    (driveRun f period s).lnk = s.lnk ∧ (driveRun f period s).ort = s.ort ∧ (driveRun f period s).sch = s.sch ∧
    (driveRun f period s).ifu = s.ifu ∧ (driveRun f period s).exu = s.exu ∧ (driveRun f period s).cut = s.cut ∧
    (driveRun f period s).srt = s.srt ∧ (driveRun f period s).prc = s.prc ∧ (driveRun f period s).set = s.set ∧
    (driveRun f period s).free = s.free ∧ (driveRun f period s).pending = s.pending ∧
    (driveRun f period s).web.map = s.web.map ∧ (driveRun f period s).web.active = s.web.active ∧
    (driveRun f period s).web.threading = s.web.threading ∧ (driveRun f period s).web.fIn = s.web.fIn ∧
    (driveRun f period s).web.c = s.web.c ∧ (driveRun f period s).web.state = s.web.state ∧
    (driveRun f period s).web.ask = s.web.ask ∧ (driveRun f period s).web.magA = s.web.magA ∧
    (driveRun f period s).web.magB = s.web.magB := by
  simp [driveRun]

@[simp] theorem updNewest_frame (f : WebEntry → WebEntry) (s : State) :
    (updNewest f s).lnk = s.lnk ∧ (updNewest f s).ort = s.ort ∧ (updNewest f s).sch = s.sch ∧
    (updNewest f s).ifu = s.ifu ∧ (updNewest f s).exu = s.exu ∧ (updNewest f s).cut = s.cut ∧
    (updNewest f s).srt = s.srt ∧ (updNewest f s).prc = s.prc ∧ (updNewest f s).set = s.set ∧
    (updNewest f s).free = s.free ∧ (updNewest f s).pending = s.pending ∧ (updNewest f s).web.run = s.web.run ∧
    (updNewest f s).web.active = s.web.active ∧ (updNewest f s).web.threading = s.web.threading ∧
    (updNewest f s).web.fIn = s.web.fIn ∧ (updNewest f s).web.c = s.web.c ∧ (updNewest f s).web.state = s.web.state ∧
    (updNewest f s).web.ask = s.web.ask ∧ (updNewest f s).web.flush = s.web.flush ∧
    (updNewest f s).web.flushTimer = s.web.flushTimer ∧ (updNewest f s).web.magA = s.web.magA ∧
    (updNewest f s).web.magB = s.web.magB := by
  unfold updNewest; (repeat' split) <;> simp

@[simp] theorem markStep_frame (s : State) :
    (markStep s).lnk = s.lnk ∧ (markStep s).ort = s.ort ∧ (markStep s).sch = s.sch ∧ (markStep s).ifu = s.ifu ∧
    (markStep s).exu = s.exu ∧ (markStep s).cut = s.cut ∧ (markStep s).srt = s.srt ∧ (markStep s).prc = s.prc ∧
    (markStep s).set = s.set ∧ (markStep s).free = s.free ∧ (markStep s).pending = s.pending ∧
    (markStep s).web.run = s.web.run ∧ (markStep s).web.active = s.web.active ∧
    (markStep s).web.threading = s.web.threading ∧ (markStep s).web.fIn = s.web.fIn ∧ (markStep s).web.c = s.web.c ∧
    (markStep s).web.state = s.web.state ∧ (markStep s).web.ask = s.web.ask ∧ (markStep s).web.flush = s.web.flush ∧
    (markStep s).web.flushTimer = s.web.flushTimer ∧ (markStep s).web.magA = s.web.magA ∧
    (markStep s).web.magB = s.web.magB := by
  unfold markStep; (repeat' split) <;> simp

@[simp] theorem markActive_frame (m : Mag) (s : State) :
    (markActive m s).lnk = s.lnk ∧ (markActive m s).ort = s.ort ∧ (markActive m s).ifu = s.ifu ∧
    (markActive m s).exu = s.exu ∧ (markActive m s).web = s.web ∧ (markActive m s).cut = s.cut ∧
    (markActive m s).srt = s.srt ∧ (markActive m s).prc = s.prc ∧ (markActive m s).set = s.set ∧
    (markActive m s).free = s.free ∧ (markActive m s).pending = s.pending := by
  unfold markActive; (repeat' split) <;> simp

@[simp] theorem markInactive_frame (m : Mag) (s : State) :
    (markInactive m s).lnk = s.lnk ∧ (markInactive m s).ort = s.ort ∧ (markInactive m s).ifu = s.ifu ∧
    (markInactive m s).exu = s.exu ∧ (markInactive m s).web = s.web ∧ (markInactive m s).cut = s.cut ∧
    (markInactive m s).srt = s.srt ∧ (markInactive m s).prc = s.prc ∧ (markInactive m s).set = s.set ∧
    (markInactive m s).free = s.free ∧ (markInactive m s).pending = s.pending := by
  unfold markInactive; (repeat' split) <;> simp

@[simp] theorem stateCheck_frame (slot : Nat) (number : Nat) (s : State) :
    (stateCheck slot number s).sch = s.sch ∧ (stateCheck slot number s).ifu = s.ifu ∧
    (stateCheck slot number s).exu = s.exu ∧ (stateCheck slot number s).web = s.web ∧
    (stateCheck slot number s).cut = s.cut ∧ (stateCheck slot number s).srt = s.srt ∧
    (stateCheck slot number s).prc = s.prc ∧ (stateCheck slot number s).set = s.set ∧
    (stateCheck slot number s).free = s.free ∧ (stateCheck slot number s).pending = s.pending ∧
    (stateCheck slot number s).ort.seq = s.ort.seq := by
  unfold stateCheck; (repeat' split) <;> simp

@[simp] theorem stripUnread_frame (m : Mag) (frame : Nat) (s : State) :
    (stripUnread m frame s).ort = s.ort ∧ (stripUnread m frame s).ifu = s.ifu ∧ (stripUnread m frame s).exu = s.exu ∧
    (stripUnread m frame s).web = s.web ∧ (stripUnread m frame s).cut = s.cut ∧ (stripUnread m frame s).srt = s.srt ∧
    (stripUnread m frame s).prc = s.prc ∧ (stripUnread m frame s).set = s.set ∧
    (stripUnread m frame s).free = s.free ∧ (stripUnread m frame s).pending = s.pending := by
  simp [stripUnread]

@[simp] theorem stripRead_frame (m : Mag) (frame : Nat) (reading : RGB Nat) (s : State) :
    (stripRead m frame reading s).ort = s.ort ∧ (stripRead m frame reading s).ifu = s.ifu ∧
    (stripRead m frame reading s).exu = s.exu ∧ (stripRead m frame reading s).cut = s.cut ∧
    (stripRead m frame reading s).srt = s.srt ∧ (stripRead m frame reading s).prc = s.prc ∧
    (stripRead m frame reading s).set = s.set ∧ (stripRead m frame reading s).free = s.free ∧
    (stripRead m frame reading s).pending = s.pending := by
  unfold stripRead; dsimp only
  (repeat' apply And.intro) <;> (repeat' (first | exact Eq.refl _ | (simp; done) | split))

@[simp] theorem setRemaining_frame (m : Mag) (n : Nat) (s : State) :
    (setRemaining m n s).ort = s.ort ∧ (setRemaining m n s).sch = s.sch ∧ (setRemaining m n s).ifu = s.ifu ∧
    (setRemaining m n s).exu = s.exu ∧ (setRemaining m n s).cut = s.cut ∧ (setRemaining m n s).srt = s.srt ∧
    (setRemaining m n s).prc = s.prc ∧ (setRemaining m n s).set = s.set ∧ (setRemaining m n s).free = s.free ∧
    (setRemaining m n s).pending = s.pending := by
  simp [setRemaining]

@[simp] theorem setWebState_frame (w : WebState) (s : State) :
    (setWebState w s).lnk = s.lnk ∧ (setWebState w s).ort = s.ort ∧ (setWebState w s).sch = s.sch ∧
    (setWebState w s).ifu = s.ifu ∧ (setWebState w s).exu = s.exu ∧ (setWebState w s).srt = s.srt ∧
    (setWebState w s).prc = s.prc ∧ (setWebState w s).set = s.set ∧ (setWebState w s).free = s.free ∧
    (setWebState w s).pending = s.pending ∧ (setWebState w s).web.map = s.web.map ∧
    (setWebState w s).web.run = s.web.run ∧ (setWebState w s).web.active = s.web.active ∧
    (setWebState w s).web.threading = s.web.threading ∧ (setWebState w s).web.fIn = s.web.fIn ∧
    (setWebState w s).web.c = s.web.c ∧ (setWebState w s).web.ask = s.web.ask ∧
    (setWebState w s).web.magA = s.web.magA ∧ (setWebState w s).web.magB = s.web.magB ∧
    (setWebState w s).cut.offset = s.cut.offset ∧ (setWebState w s).cut.missCount = s.cut.missCount ∧
    (setWebState w s).cut.nextCut = s.cut.nextCut ∧ (setWebState w s).cut.markRun = s.cut.markRun ∧
    (setWebState w s).cut.gaps = s.cut.gaps ∧ (setWebState w s).cut.carried = s.cut.carried ∧
    (setWebState w s).cut.leadingMade = s.cut.leadingMade ∧ (setWebState w s).cut.abandoned = s.cut.abandoned := by
  unfold setWebState; (repeat' split) <;> simp

@[simp] theorem endRunEarly_frame (s : State) :
    (endRunEarly s).lnk = s.lnk ∧ (endRunEarly s).ort = s.ort ∧ (endRunEarly s).sch = s.sch ∧
    (endRunEarly s).cut = s.cut ∧ (endRunEarly s).srt = s.srt ∧ (endRunEarly s).prc = s.prc ∧
    (endRunEarly s).set = s.set ∧ (endRunEarly s).free = s.free ∧ (endRunEarly s).pending = s.pending ∧
    (endRunEarly s).web.map = s.web.map ∧ (endRunEarly s).web.active = s.web.active ∧
    (endRunEarly s).web.threading = s.web.threading ∧ (endRunEarly s).web.fIn = s.web.fIn ∧
    (endRunEarly s).web.c = s.web.c ∧ (endRunEarly s).web.state = s.web.state ∧ (endRunEarly s).web.ask = s.web.ask ∧
    (endRunEarly s).web.flush = s.web.flush ∧ (endRunEarly s).web.flushTimer = s.web.flushTimer ∧
    (endRunEarly s).web.magA = s.web.magA ∧ (endRunEarly s).web.magB = s.web.magB := by
  unfold endRunEarly; dsimp only
  (repeat' apply And.intro) <;> (repeat' (first | exact Eq.refl _ | (simp; done) | split))

@[simp] theorem dropCarried_frame (s : State) :
    (dropCarried s).lnk = s.lnk ∧ (dropCarried s).ort = s.ort ∧ (dropCarried s).sch = s.sch ∧
    (dropCarried s).ifu = s.ifu ∧ (dropCarried s).exu = s.exu ∧ (dropCarried s).web = s.web ∧
    (dropCarried s).srt = s.srt ∧ (dropCarried s).prc = s.prc ∧ (dropCarried s).set = s.set ∧
    (dropCarried s).free = s.free ∧ (dropCarried s).pending = s.pending ∧ (dropCarried s).cut.state = s.cut.state ∧
    (dropCarried s).cut.offset = s.cut.offset ∧ (dropCarried s).cut.missCount = s.cut.missCount ∧
    (dropCarried s).cut.nextCut = s.cut.nextCut ∧ (dropCarried s).cut.leadingMade = s.cut.leadingMade ∧
    (dropCarried s).cut.abandoned = s.cut.abandoned := by
  simp [dropCarried]

@[simp] theorem commandCut_frame (s : State) :
    (commandCut s).lnk = s.lnk ∧ (commandCut s).ort = s.ort ∧ (commandCut s).sch = s.sch ∧
    (commandCut s).ifu = s.ifu ∧ (commandCut s).exu = s.exu ∧ (commandCut s).srt = s.srt ∧
    (commandCut s).prc = s.prc ∧ (commandCut s).set = s.set ∧ (commandCut s).free = s.free ∧
    (commandCut s).pending = s.pending ∧ (commandCut s).web.run = s.web.run ∧
    (commandCut s).web.active = s.web.active ∧ (commandCut s).web.threading = s.web.threading ∧
    (commandCut s).web.fIn = s.web.fIn ∧ (commandCut s).web.c = s.web.c ∧ (commandCut s).web.state = s.web.state ∧
    (commandCut s).web.ask = s.web.ask ∧ (commandCut s).web.flush = s.web.flush ∧
    (commandCut s).web.flushTimer = s.web.flushTimer ∧ (commandCut s).web.magA = s.web.magA ∧
    (commandCut s).web.magB = s.web.magB ∧ (commandCut s).cut.offset = s.cut.offset ∧
    (commandCut s).cut.missCount = s.cut.missCount ∧ (commandCut s).cut.nextCut = s.cut.nextCut ∧
    (commandCut s).cut.markRun = s.cut.markRun ∧ (commandCut s).cut.gaps = s.cut.gaps ∧
    (commandCut s).cut.carried = s.cut.carried ∧ (commandCut s).cut.leadingMade = s.cut.leadingMade ∧
    (commandCut s).cut.abandoned = s.cut.abandoned := by
  unfold commandCut; (repeat' split) <;> simp

@[simp] theorem decideGap_frame (d : GapDecision) (offset : Int) (s : State) :
    (decideGap d offset s).lnk = s.lnk ∧ (decideGap d offset s).ort = s.ort ∧
    (decideGap d offset s).sch = s.sch ∧ (decideGap d offset s).ifu = s.ifu ∧
    (decideGap d offset s).exu = s.exu ∧ (decideGap d offset s).web = s.web ∧
    (decideGap d offset s).srt = s.srt ∧ (decideGap d offset s).prc = s.prc ∧
    (decideGap d offset s).set = s.set ∧ (decideGap d offset s).free = s.free ∧
    (decideGap d offset s).pending = s.pending ∧ (decideGap d offset s).cut.state = s.cut.state ∧
    (decideGap d offset s).cut.offset = s.cut.offset ∧ (decideGap d offset s).cut.missCount = s.cut.missCount ∧
    (decideGap d offset s).cut.nextCut = s.cut.nextCut ∧
    (decideGap d offset s).cut.leadingMade = s.cut.leadingMade ∧
    (decideGap d offset s).cut.abandoned = s.cut.abandoned := by
  simp [decideGap]

@[simp] theorem routePrint_frame (r : PrintRef) (frame : Nat) (s : State) :
    (routePrint r frame s).sch = s.sch ∧ (routePrint r frame s).ifu = s.ifu ∧ (routePrint r frame s).exu = s.exu ∧
    (routePrint r frame s).web = s.web ∧ (routePrint r frame s).cut = s.cut ∧ (routePrint r frame s).prc = s.prc ∧
    (routePrint r frame s).set = s.set ∧ (routePrint r frame s).free = s.free ∧
    (routePrint r frame s).pending = s.pending ∧ (routePrint r frame s).srt.overflow = s.srt.overflow ∧
    (routePrint r frame s).srt.reject = s.srt.reject ∧ (routePrint r frame s).srt.state = s.srt.state ∧
    (routePrint r frame s).ort.seq = s.ort.seq ∧ (routePrint r frame s).srt.windows = s.srt.windows := by
  unfold routePrint; (repeat' split) <;> simp

@[simp] theorem landIn_frame (b : Nat) (s : State) :
    (landIn b s).ort = s.ort ∧ (landIn b s).sch = s.sch ∧ (landIn b s).ifu = s.ifu ∧ (landIn b s).exu = s.exu ∧
    (landIn b s).web = s.web ∧ (landIn b s).cut = s.cut ∧ (landIn b s).prc = s.prc ∧ (landIn b s).set = s.set ∧
    (landIn b s).free = s.free ∧ (landIn b s).pending = s.pending := by
  unfold landIn; dsimp only; (repeat' apply And.intro) <;> (repeat' (first | exact Eq.refl _ | (simp; done) | split))

@[simp] theorem emptiedEarly_frame (b : Nat) (x : OrderBin) (s : State) :
    (emptiedEarly b x s).sch = s.sch ∧ (emptiedEarly b x s).ifu = s.ifu ∧ (emptiedEarly b x s).exu = s.exu ∧
    (emptiedEarly b x s).web = s.web ∧ (emptiedEarly b x s).cut = s.cut ∧ (emptiedEarly b x s).prc = s.prc ∧
    (emptiedEarly b x s).set = s.set ∧ (emptiedEarly b x s).free = s.free ∧
    (emptiedEarly b x s).pending = s.pending ∧ (emptiedEarly b x s).srt.transit = s.srt.transit ∧
    (emptiedEarly b x s).srt.overflow = s.srt.overflow ∧ (emptiedEarly b x s).srt.reject = s.srt.reject ∧
    (emptiedEarly b x s).srt.state = s.srt.state ∧ (emptiedEarly b x s).srt.dropping = s.srt.dropping ∧
    (emptiedEarly b x s).ort.seq = s.ort.seq ∧ (emptiedEarly b x s).srt.windows = s.srt.windows := by
  unfold emptiedEarly; (repeat' split) <;> simp

@[simp] theorem realignHolding_frame (b : Nat) (cap : Nat) (s : State) :
    (realignHolding b cap s).ort = s.ort ∧ (realignHolding b cap s).sch = s.sch ∧
    (realignHolding b cap s).ifu = s.ifu ∧ (realignHolding b cap s).exu = s.exu ∧
    (realignHolding b cap s).web = s.web ∧ (realignHolding b cap s).cut = s.cut ∧
    (realignHolding b cap s).prc = s.prc ∧ (realignHolding b cap s).set = s.set ∧
    (realignHolding b cap s).free = s.free ∧ (realignHolding b cap s).pending = s.pending := by
  unfold realignHolding; dsimp only
  (repeat' apply And.intro) <;> (repeat' (first | exact Eq.refl _ | (simp; done) | split))

@[simp] theorem createPrint_frame (c : Candidate) (m : Mag) (s : State) :
    (createPrint c m s).lnk = s.lnk ∧ (createPrint c m s).ifu = s.ifu ∧ (createPrint c m s).exu = s.exu ∧
    (createPrint c m s).web = s.web ∧ (createPrint c m s).cut = s.cut ∧ (createPrint c m s).prc = s.prc ∧
    (createPrint c m s).set = s.set ∧ (createPrint c m s).free = s.free ∧ (createPrint c m s).pending = s.pending ∧
    (createPrint c m s).srt.transit = s.srt.transit ∧ (createPrint c m s).srt.overflow = s.srt.overflow ∧
    (createPrint c m s).srt.reject = s.srt.reject ∧ (createPrint c m s).srt.state = s.srt.state ∧
    (createPrint c m s).srt.dropping = s.srt.dropping ∧ (createPrint c m s).sch.changeover = s.sch.changeover ∧
    (createPrint c m s).ort.seq = s.ort.seq ∧ (createPrint c m s).srt.windows = s.srt.windows := by
  unfold createPrint; (repeat' split) <;> simp

@[simp] theorem paperTest_frame (c : Candidate) (s : State) :
    (paperTest c s).sch = s.sch ∧ (paperTest c s).ifu = s.ifu ∧ (paperTest c s).exu = s.exu ∧
    (paperTest c s).web = s.web ∧ (paperTest c s).cut = s.cut ∧ (paperTest c s).srt = s.srt ∧
    (paperTest c s).prc = s.prc ∧ (paperTest c s).set = s.set ∧ (paperTest c s).free = s.free ∧
    (paperTest c s).pending = s.pending ∧ (paperTest c s).ort.seq = s.ort.seq := by
  unfold paperTest; dsimp only
  (repeat' apply And.intro) <;> (repeat' (first | exact Eq.refl _ | (simp; done) | split))

@[simp] theorem sendFetch_frame (tag : Nat) (slot : Nat) (x : Supply) (l : Line) (row : Nat) (s : State) :
    (sendFetch tag slot x l row s).ort = s.ort ∧ (sendFetch tag slot x l row s).sch = s.sch ∧
    (sendFetch tag slot x l row s).exu = s.exu ∧ (sendFetch tag slot x l row s).web = s.web ∧
    (sendFetch tag slot x l row s).cut = s.cut ∧ (sendFetch tag slot x l row s).srt = s.srt ∧
    (sendFetch tag slot x l row s).prc = s.prc ∧ (sendFetch tag slot x l row s).set = s.set ∧
    (sendFetch tag slot x l row s).free = s.free ∧ (sendFetch tag slot x l row s).pending = s.pending ∧
    (sendFetch tag slot x l row s).ifu.current = s.ifu.current := by
  simp [sendFetch]

@[simp] theorem fillSlot_frame (i : Nat) (pixels : List (RGB Byte)) (s : State) :
    (fillSlot i pixels s).lnk = s.lnk ∧ (fillSlot i pixels s).ort = s.ort ∧ (fillSlot i pixels s).sch = s.sch ∧
    (fillSlot i pixels s).exu = s.exu ∧ (fillSlot i pixels s).web = s.web ∧ (fillSlot i pixels s).cut = s.cut ∧
    (fillSlot i pixels s).srt = s.srt ∧ (fillSlot i pixels s).prc = s.prc ∧ (fillSlot i pixels s).set = s.set ∧
    (fillSlot i pixels s).free = s.free ∧ (fillSlot i pixels s).pending = s.pending ∧
    (fillSlot i pixels s).ifu.current = s.ifu.current ∧ (fillSlot i pixels s).ifu.tags = s.ifu.tags := by
  unfold fillSlot; (repeat' split) <;> simp

@[simp] theorem expireTag_frame (t : Nat) (s : State) :
    (expireTag t s).lnk = s.lnk ∧ (expireTag t s).ort = s.ort ∧ (expireTag t s).sch = s.sch ∧
    (expireTag t s).exu = s.exu ∧ (expireTag t s).web = s.web ∧ (expireTag t s).cut = s.cut ∧
    (expireTag t s).srt = s.srt ∧ (expireTag t s).prc = s.prc ∧ (expireTag t s).set = s.set ∧
    (expireTag t s).free = s.free ∧ (expireTag t s).pending = s.pending ∧
    (expireTag t s).ifu.current = s.ifu.current := by
  unfold expireTag; (repeat' split) <;> simp

@[simp] theorem startWaking_frame (s : State) :
    (startWaking s).ort = s.ort ∧ (startWaking s).sch = s.sch ∧ (startWaking s).ifu = s.ifu ∧
    (startWaking s).web = s.web ∧ (startWaking s).cut = s.cut ∧ (startWaking s).srt = s.srt ∧
    (startWaking s).prc = s.prc ∧ (startWaking s).set = s.set ∧ (startWaking s).free = s.free ∧
    (startWaking s).pending = s.pending := by
  unfold startWaking; (repeat' split) <;> simp

@[simp] theorem takeNext_frame (s : State) :
    (takeNext s).ort = s.ort ∧ (takeNext s).sch = s.sch ∧ (takeNext s).ifu = s.ifu ∧ (takeNext s).exu = s.exu ∧
    (takeNext s).web = s.web ∧ (takeNext s).cut = s.cut ∧ (takeNext s).srt = s.srt ∧ (takeNext s).prc = s.prc ∧
    (takeNext s).set = s.set ∧ (takeNext s).free = s.free ∧ (takeNext s).pending = s.pending := by
  unfold takeNext; (repeat' split) <;> simp

@[simp] theorem fetchSentEffect_frame (s : State) :
    (fetchSentEffect s).ort = s.ort ∧ (fetchSentEffect s).sch = s.sch ∧ (fetchSentEffect s).exu = s.exu ∧
    (fetchSentEffect s).web = s.web ∧ (fetchSentEffect s).cut = s.cut ∧ (fetchSentEffect s).srt = s.srt ∧
    (fetchSentEffect s).prc = s.prc ∧ (fetchSentEffect s).set = s.set ∧ (fetchSentEffect s).free = s.free ∧
    (fetchSentEffect s).pending = s.pending ∧ (fetchSentEffect s).ifu.current = s.ifu.current := by
  unfold fetchSentEffect; (repeat' split) <;> simp

@[simp] theorem resetHead_frame (s : State) :
    (resetHead s).lnk = s.lnk ∧ (resetHead s).ort = s.ort ∧ (resetHead s).sch = s.sch ∧ (resetHead s).ifu = s.ifu ∧
    (resetHead s).web = s.web ∧ (resetHead s).cut = s.cut ∧ (resetHead s).srt = s.srt ∧ (resetHead s).prc = s.prc ∧
    (resetHead s).set = s.set ∧ (resetHead s).free = s.free ∧ (resetHead s).pending = s.pending := by
  unfold resetHead; (repeat' split) <;> simp

@[simp] theorem resetSorter_frame (s : State) :
    (resetSorter s).lnk = s.lnk ∧ (resetSorter s).ort = s.ort ∧ (resetSorter s).sch = s.sch ∧
    (resetSorter s).ifu = s.ifu ∧ (resetSorter s).exu = s.exu ∧ (resetSorter s).web = s.web ∧
    (resetSorter s).cut = s.cut ∧ (resetSorter s).prc = s.prc ∧ (resetSorter s).set = s.set ∧
    (resetSorter s).free = s.free ∧ (resetSorter s).pending = s.pending ∧
    (resetSorter s).srt.windows = s.srt.windows := by
  simp [resetSorter]

@[simp] theorem idleExpiry_frame (s : State) :
    (idleExpiry s).ort = s.ort ∧ (idleExpiry s).sch = s.sch ∧ (idleExpiry s).ifu = s.ifu ∧
    (idleExpiry s).cut = s.cut ∧ (idleExpiry s).srt = s.srt ∧ (idleExpiry s).prc = s.prc ∧
    (idleExpiry s).set = s.set ∧ (idleExpiry s).free = s.free ∧ (idleExpiry s).pending = s.pending ∧
    (idleExpiry s).web.map = s.web.map ∧ (idleExpiry s).web.run = s.web.run ∧
    (idleExpiry s).web.active = s.web.active ∧ (idleExpiry s).web.threading = s.web.threading ∧
    (idleExpiry s).web.fIn = s.web.fIn ∧ (idleExpiry s).web.c = s.web.c ∧ (idleExpiry s).web.state = s.web.state ∧
    (idleExpiry s).web.ask = s.web.ask ∧ (idleExpiry s).web.magA = s.web.magA ∧
    (idleExpiry s).web.magB = s.web.magB := by
  unfold idleExpiry; (repeat' split) <;> simp

@[simp] theorem warmUpDone_frame (s : State) :
    (warmUpDone s).ort = s.ort ∧ (warmUpDone s).sch = s.sch ∧ (warmUpDone s).ifu = s.ifu ∧
    (warmUpDone s).web = s.web ∧ (warmUpDone s).cut = s.cut ∧ (warmUpDone s).srt = s.srt ∧
    (warmUpDone s).prc = s.prc ∧ (warmUpDone s).set = s.set ∧ (warmUpDone s).free = s.free ∧
    (warmUpDone s).pending = s.pending := by
  unfold warmUpDone; (repeat' split) <;> simp

@[simp] theorem headToFault_frame (before : HeadState) (frame : Option Nat) (s : State) :
    (headToFault before frame s).ort = s.ort ∧ (headToFault before frame s).sch = s.sch ∧
    (headToFault before frame s).ifu = s.ifu ∧ (headToFault before frame s).web = s.web ∧
    (headToFault before frame s).cut = s.cut ∧ (headToFault before frame s).srt = s.srt ∧
    (headToFault before frame s).prc = s.prc ∧ (headToFault before frame s).set = s.set ∧
    (headToFault before frame s).free = s.free ∧ (headToFault before frame s).pending = s.pending := by
  simp [headToFault]

@[simp] theorem takeHead_frame (s : State) :
    (takeHead s).lnk = s.lnk ∧ (takeHead s).ort = s.ort ∧ (takeHead s).exu = s.exu ∧ (takeHead s).web = s.web ∧
    (takeHead s).cut = s.cut ∧ (takeHead s).srt = s.srt ∧ (takeHead s).prc = s.prc ∧ (takeHead s).set = s.set ∧
    (takeHead s).free = s.free ∧ (takeHead s).pending = s.pending ∧ (takeHead s).ifu.current = s.ifu.current ∧
    (takeHead s).ifu.tags = s.ifu.tags ∧ (takeHead s).sch.changeover = s.sch.changeover := by
  simp [takeHead]

@[simp] theorem runComplete_frame (s : State) :
    (runComplete s).lnk = s.lnk ∧ (runComplete s).ort = s.ort ∧ (runComplete s).sch = s.sch ∧
    (runComplete s).ifu = s.ifu ∧ (runComplete s).cut = s.cut ∧ (runComplete s).srt = s.srt ∧
    (runComplete s).prc = s.prc ∧ (runComplete s).set = s.set ∧ (runComplete s).free = s.free ∧
    (runComplete s).pending = s.pending ∧ (runComplete s).web.active = s.web.active ∧
    (runComplete s).web.threading = s.web.threading ∧ (runComplete s).web.fIn = s.web.fIn ∧
    (runComplete s).web.c = s.web.c ∧ (runComplete s).web.state = s.web.state ∧ (runComplete s).web.ask = s.web.ask ∧
    (runComplete s).web.flushTimer = s.web.flushTimer ∧ (runComplete s).web.magA = s.web.magA ∧
    (runComplete s).web.magB = s.web.magB := by
  unfold runComplete; dsimp only
  (repeat' apply And.intro) <;> (repeat' (first | exact Eq.refl _ | (simp; done) | split))

@[simp] theorem flushExpiry_frame (s : State) :
    (flushExpiry s).lnk = s.lnk ∧ (flushExpiry s).ort = s.ort ∧ (flushExpiry s).sch = s.sch ∧
    (flushExpiry s).ifu = s.ifu ∧ (flushExpiry s).exu = s.exu ∧ (flushExpiry s).cut = s.cut ∧
    (flushExpiry s).srt = s.srt ∧ (flushExpiry s).prc = s.prc ∧ (flushExpiry s).set = s.set ∧
    (flushExpiry s).free = s.free ∧ (flushExpiry s).pending = s.pending ∧ (flushExpiry s).web.map = s.web.map ∧
    (flushExpiry s).web.run = s.web.run ∧ (flushExpiry s).web.active = s.web.active ∧
    (flushExpiry s).web.threading = s.web.threading ∧ (flushExpiry s).web.fIn = s.web.fIn ∧
    (flushExpiry s).web.c = s.web.c ∧ (flushExpiry s).web.state = s.web.state ∧ (flushExpiry s).web.ask = s.web.ask ∧
    (flushExpiry s).web.magA = s.web.magA ∧ (flushExpiry s).web.magB = s.web.magB := by
  unfold flushExpiry; (repeat' split) <;> simp

@[simp] theorem changeoverDone_frame (m : Mag) (s : State) :
    (changeoverDone m s).ort = s.ort ∧ (changeoverDone m s).ifu = s.ifu ∧ (changeoverDone m s).exu = s.exu ∧
    (changeoverDone m s).cut = s.cut ∧ (changeoverDone m s).srt = s.srt ∧ (changeoverDone m s).prc = s.prc ∧
    (changeoverDone m s).set = s.set ∧ (changeoverDone m s).free = s.free ∧
    (changeoverDone m s).pending = s.pending ∧ (changeoverDone m s).web.map = s.web.map ∧
    (changeoverDone m s).web.run = s.web.run ∧ (changeoverDone m s).web.active = s.web.active ∧
    (changeoverDone m s).web.threading = s.web.threading ∧ (changeoverDone m s).web.fIn = s.web.fIn ∧
    (changeoverDone m s).web.c = s.web.c ∧ (changeoverDone m s).web.state = s.web.state ∧
    (changeoverDone m s).web.flush = s.web.flush ∧ (changeoverDone m s).web.flushTimer = s.web.flushTimer ∧
    (changeoverDone m s).web.magA = s.web.magA ∧ (changeoverDone m s).web.magB = s.web.magB := by
  simp [changeoverDone]

@[simp] theorem trailingDone_frame (s : State) :
    (trailingDone s).lnk = s.lnk ∧ (trailingDone s).ort = s.ort ∧ (trailingDone s).sch = s.sch ∧
    (trailingDone s).ifu = s.ifu ∧ (trailingDone s).exu = s.exu ∧ (trailingDone s).prc = s.prc ∧
    (trailingDone s).set = s.set ∧ (trailingDone s).free = s.free ∧ (trailingDone s).pending = s.pending ∧
    (trailingDone s).web.run = s.web.run ∧ (trailingDone s).web.active = s.web.active ∧
    (trailingDone s).web.threading = s.web.threading ∧ (trailingDone s).web.fIn = s.web.fIn ∧
    (trailingDone s).web.c = s.web.c ∧ (trailingDone s).web.state = s.web.state ∧
    (trailingDone s).web.ask = s.web.ask ∧ (trailingDone s).web.flush = s.web.flush ∧
    (trailingDone s).web.flushTimer = s.web.flushTimer ∧ (trailingDone s).web.magA = s.web.magA ∧
    (trailingDone s).web.magB = s.web.magB ∧ (trailingDone s).cut.state = s.cut.state ∧
    (trailingDone s).cut.offset = s.cut.offset ∧ (trailingDone s).cut.missCount = s.cut.missCount ∧
    (trailingDone s).cut.nextCut = s.cut.nextCut ∧ (trailingDone s).cut.markRun = s.cut.markRun ∧
    (trailingDone s).cut.abandoned = s.cut.abandoned ∧ (trailingDone s).srt.bins = s.srt.bins ∧
    (trailingDone s).srt.overflow = s.srt.overflow ∧ (trailingDone s).srt.reject = s.srt.reject ∧
    (trailingDone s).srt.state = s.srt.state ∧ (trailingDone s).srt.dropping = s.srt.dropping ∧
    (trailingDone s).srt.windows = s.srt.windows := by
  unfold trailingDone; (repeat' split) <;> simp

@[simp] theorem reportReturned_frame (r : PrintRef) (s : State) :
    (reportReturned r s).sch = s.sch ∧ (reportReturned r s).ifu = s.ifu ∧ (reportReturned r s).exu = s.exu ∧
    (reportReturned r s).web = s.web ∧ (reportReturned r s).cut = s.cut ∧ (reportReturned r s).srt = s.srt ∧
    (reportReturned r s).prc = s.prc ∧ (reportReturned r s).set = s.set ∧ (reportReturned r s).free = s.free ∧
    (reportReturned r s).pending = s.pending ∧ (reportReturned r s).ort.seq = s.ort.seq := by
  simp [reportReturned]

@[simp] theorem reportDelivered_frame (r : PrintRef) (s : State) :
    (reportDelivered r s).sch = s.sch ∧ (reportDelivered r s).ifu = s.ifu ∧ (reportDelivered r s).exu = s.exu ∧
    (reportDelivered r s).web = s.web ∧ (reportDelivered r s).cut = s.cut ∧ (reportDelivered r s).srt = s.srt ∧
    (reportDelivered r s).prc = s.prc ∧ (reportDelivered r s).set = s.set ∧ (reportDelivered r s).free = s.free ∧
    (reportDelivered r s).pending = s.pending ∧ (reportDelivered r s).ort.seq = s.ort.seq := by
  simp [reportDelivered]

@[simp] theorem feedOne_frame (s : State) :
    (feedOne s).ort = s.ort ∧ (feedOne s).sch = s.sch ∧ (feedOne s).ifu = s.ifu ∧ (feedOne s).exu = s.exu ∧
    (feedOne s).cut = s.cut ∧ (feedOne s).srt = s.srt ∧ (feedOne s).prc = s.prc ∧ (feedOne s).set = s.set ∧
    (feedOne s).free = s.free ∧ (feedOne s).pending = s.pending := by
  unfold feedOne; dsimp only; (repeat' apply And.intro) <;> (repeat' (first | exact Eq.refl _ | (simp; done) | split))

@[simp] theorem startThreading_frame (m : Mag) (s : State) :
    (startThreading m s).lnk = s.lnk ∧ (startThreading m s).ort = s.ort ∧ (startThreading m s).sch = s.sch ∧
    (startThreading m s).ifu = s.ifu ∧ (startThreading m s).exu = s.exu ∧ (startThreading m s).srt = s.srt ∧
    (startThreading m s).prc = s.prc ∧ (startThreading m s).set = s.set ∧ (startThreading m s).free = s.free ∧
    (startThreading m s).pending = s.pending ∧ (startThreading m s).web.map = s.web.map ∧
    (startThreading m s).web.run = s.web.run ∧ (startThreading m s).web.active = s.web.active ∧
    (startThreading m s).web.ask = s.web.ask ∧ (startThreading m s).web.magA = s.web.magA ∧
    (startThreading m s).web.magB = s.web.magB ∧ (startThreading m s).cut.offset = s.cut.offset ∧
    (startThreading m s).cut.missCount = s.cut.missCount ∧ (startThreading m s).cut.nextCut = s.cut.nextCut ∧
    (startThreading m s).cut.markRun = s.cut.markRun ∧ (startThreading m s).cut.gaps = s.cut.gaps ∧
    (startThreading m s).cut.carried = s.cut.carried ∧ (startThreading m s).cut.leadingMade = s.cut.leadingMade ∧
    (startThreading m s).cut.abandoned = s.cut.abandoned := by
  unfold startThreading; dsimp only
  split <;> simp

@[simp] theorem cutDue_frame (s : State) :
    (cutDue s).lnk = s.lnk ∧ (cutDue s).ort = s.ort ∧ (cutDue s).sch = s.sch ∧ (cutDue s).ifu = s.ifu ∧
    (cutDue s).exu = s.exu ∧ (cutDue s).srt = s.srt ∧ (cutDue s).prc = s.prc ∧ (cutDue s).set = s.set ∧
    (cutDue s).free = s.free ∧ (cutDue s).pending = s.pending ∧ (cutDue s).web.run = s.web.run ∧
    (cutDue s).web.active = s.web.active ∧ (cutDue s).web.threading = s.web.threading ∧
    (cutDue s).web.fIn = s.web.fIn ∧ (cutDue s).web.c = s.web.c ∧ (cutDue s).web.state = s.web.state ∧
    (cutDue s).web.ask = s.web.ask ∧ (cutDue s).web.flush = s.web.flush ∧
    (cutDue s).web.flushTimer = s.web.flushTimer ∧ (cutDue s).web.magA = s.web.magA ∧
    (cutDue s).web.magB = s.web.magB ∧ (cutDue s).cut.offset = s.cut.offset ∧
    (cutDue s).cut.missCount = s.cut.missCount ∧ (cutDue s).cut.nextCut = s.cut.nextCut ∧
    (cutDue s).cut.markRun = s.cut.markRun ∧ (cutDue s).cut.gaps = s.cut.gaps ∧
    (cutDue s).cut.carried = s.cut.carried ∧ (cutDue s).cut.leadingMade = s.cut.leadingMade ∧
    (cutDue s).cut.abandoned = s.cut.abandoned := by
  unfold cutDue; (repeat' split) <;> simp

@[simp] theorem omitLeading_frame (e : WebEntry) (s : State) :
    (omitLeading e s).lnk = s.lnk ∧ (omitLeading e s).ort = s.ort ∧ (omitLeading e s).sch = s.sch ∧
    (omitLeading e s).ifu = s.ifu ∧ (omitLeading e s).exu = s.exu ∧ (omitLeading e s).srt = s.srt ∧
    (omitLeading e s).prc = s.prc ∧ (omitLeading e s).set = s.set ∧ (omitLeading e s).free = s.free ∧
    (omitLeading e s).pending = s.pending ∧ (omitLeading e s).web.run = s.web.run ∧
    (omitLeading e s).web.active = s.web.active ∧ (omitLeading e s).web.threading = s.web.threading ∧
    (omitLeading e s).web.fIn = s.web.fIn ∧ (omitLeading e s).web.c = s.web.c ∧
    (omitLeading e s).web.state = s.web.state ∧ (omitLeading e s).web.ask = s.web.ask ∧
    (omitLeading e s).web.flush = s.web.flush ∧ (omitLeading e s).web.flushTimer = s.web.flushTimer ∧
    (omitLeading e s).web.magA = s.web.magA ∧ (omitLeading e s).web.magB = s.web.magB ∧
    (omitLeading e s).cut.state = s.cut.state ∧ (omitLeading e s).cut.offset = s.cut.offset ∧
    (omitLeading e s).cut.missCount = s.cut.missCount ∧ (omitLeading e s).cut.nextCut = s.cut.nextCut ∧
    (omitLeading e s).cut.abandoned = s.cut.abandoned := by
  simp [omitLeading]

@[simp] theorem freePlace_frame (s : State) :
    (freePlace s).lnk = s.lnk ∧ (freePlace s).ort = s.ort ∧ (freePlace s).sch = s.sch ∧ (freePlace s).ifu = s.ifu ∧
    (freePlace s).exu = s.exu ∧ (freePlace s).srt = s.srt ∧ (freePlace s).prc = s.prc ∧ (freePlace s).set = s.set ∧
    (freePlace s).free = s.free ∧ (freePlace s).pending = s.pending ∧ (freePlace s).web.run = s.web.run ∧
    (freePlace s).web.active = s.web.active ∧ (freePlace s).web.threading = s.web.threading ∧
    (freePlace s).web.fIn = s.web.fIn ∧ (freePlace s).web.c = s.web.c ∧ (freePlace s).web.state = s.web.state ∧
    (freePlace s).web.ask = s.web.ask ∧ (freePlace s).web.flush = s.web.flush ∧
    (freePlace s).web.flushTimer = s.web.flushTimer ∧ (freePlace s).web.magA = s.web.magA ∧
    (freePlace s).web.magB = s.web.magB ∧ (freePlace s).cut.offset = s.cut.offset ∧
    (freePlace s).cut.missCount = s.cut.missCount ∧ (freePlace s).cut.nextCut = s.cut.nextCut ∧
    (freePlace s).cut.markRun = s.cut.markRun ∧ (freePlace s).cut.gaps = s.cut.gaps ∧
    (freePlace s).cut.carried = s.cut.carried ∧ (freePlace s).cut.leadingMade = s.cut.leadingMade ∧
    (freePlace s).cut.abandoned = s.cut.abandoned := by
  unfold freePlace; (repeat' split) <;> simp

@[simp] theorem dropStart_frame (s : State) :
    (dropStart s).sch = s.sch ∧ (dropStart s).ifu = s.ifu ∧ (dropStart s).exu = s.exu ∧ (dropStart s).web = s.web ∧
    (dropStart s).cut = s.cut ∧ (dropStart s).prc = s.prc ∧ (dropStart s).set = s.set ∧ (dropStart s).free = s.free ∧
    (dropStart s).pending = s.pending ∧ (dropStart s).srt.overflow = s.srt.overflow ∧
    (dropStart s).srt.reject = s.srt.reject ∧ (dropStart s).srt.state = s.srt.state ∧
    (dropStart s).ort.seq = s.ort.seq ∧ (dropStart s).srt.windows = s.srt.windows := by
  unfold dropStart; (repeat' split) <;> simp

@[simp] theorem orderBinEvent_frame (b : Nat) (v : Occupancy) (s : State) :
    (orderBinEvent b v s).sch = s.sch ∧ (orderBinEvent b v s).ifu = s.ifu ∧ (orderBinEvent b v s).exu = s.exu ∧
    (orderBinEvent b v s).web = s.web ∧ (orderBinEvent b v s).cut = s.cut ∧ (orderBinEvent b v s).prc = s.prc ∧
    (orderBinEvent b v s).set = s.set ∧ (orderBinEvent b v s).free = s.free ∧
    (orderBinEvent b v s).pending = s.pending ∧ (orderBinEvent b v s).srt.transit = s.srt.transit ∧
    (orderBinEvent b v s).srt.overflow = s.srt.overflow ∧ (orderBinEvent b v s).srt.reject = s.srt.reject ∧
    (orderBinEvent b v s).srt.state = s.srt.state ∧ (orderBinEvent b v s).srt.dropping = s.srt.dropping ∧
    (orderBinEvent b v s).ort.seq = s.ort.seq ∧ (orderBinEvent b v s).srt.windows = s.srt.windows := by
  unfold orderBinEvent; (repeat' split) <;> simp

@[simp] theorem stopWeb_frame (s : State) :
    (stopWeb s).lnk = s.lnk ∧ (stopWeb s).ort = s.ort ∧ (stopWeb s).sch = s.sch ∧ (stopWeb s).cut = s.cut ∧
    (stopWeb s).srt = s.srt ∧ (stopWeb s).prc = s.prc ∧ (stopWeb s).set = s.set ∧ (stopWeb s).free = s.free ∧
    (stopWeb s).pending = s.pending ∧ (stopWeb s).web.map = s.web.map ∧ (stopWeb s).web.active = s.web.active ∧
    (stopWeb s).web.fIn = s.web.fIn ∧ (stopWeb s).web.c = s.web.c ∧ (stopWeb s).web.state = s.web.state ∧
    (stopWeb s).web.ask = s.web.ask ∧ (stopWeb s).web.magA = s.web.magA ∧ (stopWeb s).web.magB = s.web.magB := by
  simp [stopWeb]

@[simp] theorem settingEffect_frame (id : Nat) (v : Nat) (s : State) :
    (settingEffect id v s).ort = s.ort ∧ (settingEffect id v s).sch = s.sch ∧ (settingEffect id v s).ifu = s.ifu ∧
    (settingEffect id v s).exu = s.exu ∧ (settingEffect id v s).cut = s.cut ∧ (settingEffect id v s).prc = s.prc ∧
    (settingEffect id v s).set = s.set ∧ (settingEffect id v s).free = s.free ∧
    (settingEffect id v s).pending = s.pending ∧ (settingEffect id v s).web.map = s.web.map ∧
    (settingEffect id v s).web.run = s.web.run ∧ (settingEffect id v s).web.active = s.web.active ∧
    (settingEffect id v s).web.threading = s.web.threading ∧ (settingEffect id v s).web.fIn = s.web.fIn ∧
    (settingEffect id v s).web.c = s.web.c ∧ (settingEffect id v s).web.state = s.web.state ∧
    (settingEffect id v s).web.ask = s.web.ask ∧ (settingEffect id v s).web.flush = s.web.flush ∧
    (settingEffect id v s).web.magA = s.web.magA ∧ (settingEffect id v s).web.magB = s.web.magB := by
  unfold settingEffect; (repeat' split) <;> simp

@[simp] theorem newWeb_frame (m : Mag) (s : State) :
    (newWeb m s).ort = s.ort ∧ (newWeb m s).sch = s.sch ∧ (newWeb m s).ifu = s.ifu ∧ (newWeb m s).exu = s.exu ∧
    (newWeb m s).srt = s.srt ∧ (newWeb m s).prc = s.prc ∧ (newWeb m s).set = s.set ∧ (newWeb m s).free = s.free ∧
    (newWeb m s).pending = s.pending ∧ (newWeb m s).cut.offset = s.cut.offset ∧
    (newWeb m s).cut.missCount = s.cut.missCount ∧ (newWeb m s).cut.nextCut = s.cut.nextCut ∧
    (newWeb m s).cut.markRun = s.cut.markRun ∧ (newWeb m s).cut.gaps = s.cut.gaps ∧
    (newWeb m s).cut.carried = s.cut.carried ∧ (newWeb m s).cut.leadingMade = s.cut.leadingMade ∧
    (newWeb m s).cut.abandoned = s.cut.abandoned := by
  simp [newWeb]

@[simp] theorem leadingDone_frame (s : State) :
    (leadingDone s).lnk = s.lnk ∧ (leadingDone s).ort = s.ort ∧ (leadingDone s).sch = s.sch ∧
    (leadingDone s).ifu = s.ifu ∧ (leadingDone s).exu = s.exu ∧ (leadingDone s).web = s.web ∧
    (leadingDone s).srt = s.srt ∧ (leadingDone s).prc = s.prc ∧ (leadingDone s).set = s.set ∧
    (leadingDone s).free = s.free ∧ (leadingDone s).pending = s.pending ∧ (leadingDone s).cut.state = s.cut.state ∧
    (leadingDone s).cut.offset = s.cut.offset ∧ (leadingDone s).cut.missCount = s.cut.missCount ∧
    (leadingDone s).cut.nextCut = s.cut.nextCut ∧ (leadingDone s).cut.abandoned = s.cut.abandoned := by
  simp [leadingDone]

@[simp] theorem reading_frame (x : RGB Nat) (s : State) :
    (reading x s).ort = s.ort ∧ (reading x s).ifu = s.ifu ∧ (reading x s).exu = s.exu ∧ (reading x s).cut = s.cut ∧
    (reading x s).prc = s.prc ∧ (reading x s).set = s.set ∧ (reading x s).free = s.free ∧
    (reading x s).pending = s.pending ∧ (reading x s).srt.bins = s.srt.bins ∧
    (reading x s).srt.overflow = s.srt.overflow ∧ (reading x s).srt.reject = s.srt.reject ∧
    (reading x s).srt.state = s.srt.state ∧ (reading x s).srt.dropping = s.srt.dropping ∧
    (reading x s).srt.windows = s.srt.windows := by
  unfold reading; (repeat' split) <;> simp

@[simp] theorem checkDue_frame (s : State) :
    (checkDue s).lnk = s.lnk ∧ (checkDue s).ort = s.ort ∧ (checkDue s).sch = s.sch ∧ (checkDue s).ifu = s.ifu ∧
    (checkDue s).exu = s.exu ∧ (checkDue s).srt = s.srt ∧ (checkDue s).prc = s.prc ∧ (checkDue s).set = s.set ∧
    (checkDue s).free = s.free ∧ (checkDue s).pending = s.pending ∧ (checkDue s).web.run = s.web.run ∧
    (checkDue s).web.active = s.web.active ∧ (checkDue s).web.threading = s.web.threading ∧
    (checkDue s).web.fIn = s.web.fIn ∧ (checkDue s).web.c = s.web.c ∧ (checkDue s).web.state = s.web.state ∧
    (checkDue s).web.ask = s.web.ask ∧ (checkDue s).web.flush = s.web.flush ∧
    (checkDue s).web.flushTimer = s.web.flushTimer ∧ (checkDue s).web.magA = s.web.magA ∧
    (checkDue s).web.magB = s.web.magB ∧ (checkDue s).cut.offset = s.cut.offset ∧
    (checkDue s).cut.missCount = s.cut.missCount ∧ (checkDue s).cut.nextCut = s.cut.nextCut ∧
    (checkDue s).cut.markRun = s.cut.markRun ∧ (checkDue s).cut.gaps = s.cut.gaps ∧
    (checkDue s).cut.carried = s.cut.carried ∧ (checkDue s).cut.leadingMade = s.cut.leadingMade ∧
    (checkDue s).cut.abandoned = s.cut.abandoned := by
  unfold checkDue; (repeat' split) <;> simp

@[simp] theorem headLeaves_frame (s : State) :
    (headLeaves s).ort = s.ort ∧ (headLeaves s).ifu = s.ifu ∧ (headLeaves s).exu = s.exu ∧
    (headLeaves s).prc = s.prc ∧ (headLeaves s).set = s.set ∧ (headLeaves s).free = s.free ∧
    (headLeaves s).pending = s.pending ∧ (headLeaves s).web.run = s.web.run ∧
    (headLeaves s).web.active = s.web.active ∧ (headLeaves s).web.threading = s.web.threading ∧
    (headLeaves s).web.fIn = s.web.fIn ∧ (headLeaves s).web.c = s.web.c ∧ (headLeaves s).web.state = s.web.state ∧
    (headLeaves s).web.ask = s.web.ask ∧ (headLeaves s).web.flush = s.web.flush ∧
    (headLeaves s).web.flushTimer = s.web.flushTimer ∧ (headLeaves s).web.magA = s.web.magA ∧
    (headLeaves s).web.magB = s.web.magB ∧ (headLeaves s).cut.offset = s.cut.offset ∧
    (headLeaves s).cut.missCount = s.cut.missCount ∧ (headLeaves s).cut.nextCut = s.cut.nextCut ∧
    (headLeaves s).cut.markRun = s.cut.markRun ∧ (headLeaves s).cut.gaps = s.cut.gaps ∧
    (headLeaves s).cut.carried = s.cut.carried ∧ (headLeaves s).cut.leadingMade = s.cut.leadingMade ∧
    (headLeaves s).cut.abandoned = s.cut.abandoned ∧ (headLeaves s).srt.bins = s.srt.bins ∧
    (headLeaves s).srt.overflow = s.srt.overflow ∧ (headLeaves s).srt.reject = s.srt.reject ∧
    (headLeaves s).srt.state = s.srt.state ∧ (headLeaves s).srt.dropping = s.srt.dropping ∧
    (headLeaves s).srt.windows = s.srt.windows := by
  unfold headLeaves; (repeat' split) <;> simp

@[simp] theorem binSample_frame (b : Nat) (v : Occupancy) (s : State) :
    (binSample b v s).sch = s.sch ∧ (binSample b v s).ifu = s.ifu ∧ (binSample b v s).exu = s.exu ∧
    (binSample b v s).web = s.web ∧ (binSample b v s).cut = s.cut ∧ (binSample b v s).prc = s.prc ∧
    (binSample b v s).set = s.set ∧ (binSample b v s).free = s.free ∧ (binSample b v s).pending = s.pending ∧
    (binSample b v s).ort.seq = s.ort.seq := by
  unfold binSample; dsimp only
  (repeat' apply And.intro) <;> (repeat' (first | exact Eq.refl _ | (simp; done) | split))

@[simp] theorem dropStartEffect_frame (s : State) :
    (dropStartEffect s).sch = s.sch ∧ (dropStartEffect s).ifu = s.ifu ∧ (dropStartEffect s).exu = s.exu ∧
    (dropStartEffect s).web = s.web ∧ (dropStartEffect s).cut = s.cut ∧ (dropStartEffect s).prc = s.prc ∧
    (dropStartEffect s).set = s.set ∧ (dropStartEffect s).free = s.free ∧ (dropStartEffect s).pending = s.pending ∧
    (dropStartEffect s).srt.overflow = s.srt.overflow ∧ (dropStartEffect s).srt.reject = s.srt.reject ∧
    (dropStartEffect s).srt.state = s.srt.state ∧ (dropStartEffect s).ort.seq = s.ort.seq ∧
    (dropStartEffect s).srt.windows = s.srt.windows := by
  unfold dropStartEffect; (repeat' split) <;> simp

@[simp] theorem planCut_frame (kind : CutKind) (e : WebEntry) (s : State) :
    (planCut kind e s).lnk = s.lnk ∧ (planCut kind e s).ort = s.ort ∧ (planCut kind e s).sch = s.sch ∧
    (planCut kind e s).ifu = s.ifu ∧ (planCut kind e s).exu = s.exu ∧ (planCut kind e s).srt = s.srt ∧
    (planCut kind e s).prc = s.prc ∧ (planCut kind e s).set = s.set ∧ (planCut kind e s).free = s.free ∧
    (planCut kind e s).pending = s.pending ∧ (planCut kind e s).web.run = s.web.run ∧
    (planCut kind e s).web.active = s.web.active ∧ (planCut kind e s).web.threading = s.web.threading ∧
    (planCut kind e s).web.fIn = s.web.fIn ∧ (planCut kind e s).web.c = s.web.c ∧
    (planCut kind e s).web.state = s.web.state ∧ (planCut kind e s).web.ask = s.web.ask ∧
    (planCut kind e s).web.flush = s.web.flush ∧ (planCut kind e s).web.flushTimer = s.web.flushTimer ∧
    (planCut kind e s).web.magA = s.web.magA ∧ (planCut kind e s).web.magB = s.web.magB ∧
    (planCut kind e s).cut.offset = s.cut.offset ∧ (planCut kind e s).cut.missCount = s.cut.missCount ∧
    (planCut kind e s).cut.markRun = s.cut.markRun ∧ (planCut kind e s).cut.gaps = s.cut.gaps ∧
    (planCut kind e s).cut.carried = s.cut.carried ∧ (planCut kind e s).cut.leadingMade = s.cut.leadingMade ∧
    (planCut kind e s).cut.abandoned = s.cut.abandoned := by
  simp [planCut]

@[simp] theorem retarget_frame (frame : Nat) (s : State) :
    (retarget frame s).lnk = s.lnk ∧ (retarget frame s).ort = s.ort ∧ (retarget frame s).sch = s.sch ∧
    (retarget frame s).ifu = s.ifu ∧ (retarget frame s).exu = s.exu ∧ (retarget frame s).srt = s.srt ∧
    (retarget frame s).prc = s.prc ∧ (retarget frame s).set = s.set ∧ (retarget frame s).free = s.free ∧
    (retarget frame s).pending = s.pending ∧ (retarget frame s).web.run = s.web.run ∧
    (retarget frame s).web.active = s.web.active ∧ (retarget frame s).web.threading = s.web.threading ∧
    (retarget frame s).web.fIn = s.web.fIn ∧ (retarget frame s).web.c = s.web.c ∧
    (retarget frame s).web.state = s.web.state ∧ (retarget frame s).web.ask = s.web.ask ∧
    (retarget frame s).web.flush = s.web.flush ∧ (retarget frame s).web.flushTimer = s.web.flushTimer ∧
    (retarget frame s).web.magA = s.web.magA ∧ (retarget frame s).web.magB = s.web.magB ∧
    (retarget frame s).cut.offset = s.cut.offset ∧ (retarget frame s).cut.missCount = s.cut.missCount ∧
    (retarget frame s).cut.markRun = s.cut.markRun ∧ (retarget frame s).cut.gaps = s.cut.gaps ∧
    (retarget frame s).cut.carried = s.cut.carried ∧ (retarget frame s).cut.leadingMade = s.cut.leadingMade ∧
    (retarget frame s).cut.abandoned = s.cut.abandoned := by
  unfold retarget; dsimp only
  (repeat' apply And.intro) <;> (repeat' (first | exact Eq.refl _ | (simp; done) | split))

@[simp] theorem dropDone_frame (s : State) :
    (dropDone s).ifu = s.ifu ∧ (dropDone s).exu = s.exu ∧ (dropDone s).prc = s.prc ∧ (dropDone s).set = s.set ∧
    (dropDone s).free = s.free ∧ (dropDone s).pending = s.pending ∧ (dropDone s).web.run = s.web.run ∧
    (dropDone s).web.active = s.web.active ∧ (dropDone s).web.threading = s.web.threading ∧
    (dropDone s).web.fIn = s.web.fIn ∧ (dropDone s).web.c = s.web.c ∧ (dropDone s).web.state = s.web.state ∧
    (dropDone s).web.ask = s.web.ask ∧ (dropDone s).web.flush = s.web.flush ∧
    (dropDone s).web.flushTimer = s.web.flushTimer ∧ (dropDone s).web.magA = s.web.magA ∧
    (dropDone s).web.magB = s.web.magB ∧ (dropDone s).cut.offset = s.cut.offset ∧
    (dropDone s).cut.missCount = s.cut.missCount ∧ (dropDone s).cut.nextCut = s.cut.nextCut ∧
    (dropDone s).cut.markRun = s.cut.markRun ∧ (dropDone s).cut.gaps = s.cut.gaps ∧
    (dropDone s).cut.carried = s.cut.carried ∧ (dropDone s).cut.leadingMade = s.cut.leadingMade ∧
    (dropDone s).cut.abandoned = s.cut.abandoned ∧ (dropDone s).ort.seq = s.ort.seq := by
  unfold dropDone; (repeat' split) <;> simp

@[simp] theorem resumeSorter_frame (s : State) :
    (resumeSorter s).ort = s.ort ∧ (resumeSorter s).ifu = s.ifu ∧ (resumeSorter s).exu = s.exu ∧
    (resumeSorter s).prc = s.prc ∧ (resumeSorter s).set = s.set ∧ (resumeSorter s).free = s.free ∧
    (resumeSorter s).pending = s.pending ∧ (resumeSorter s).web.run = s.web.run ∧
    (resumeSorter s).web.active = s.web.active ∧ (resumeSorter s).web.threading = s.web.threading ∧
    (resumeSorter s).web.fIn = s.web.fIn ∧ (resumeSorter s).web.c = s.web.c ∧
    (resumeSorter s).web.state = s.web.state ∧ (resumeSorter s).web.ask = s.web.ask ∧
    (resumeSorter s).web.flush = s.web.flush ∧ (resumeSorter s).web.flushTimer = s.web.flushTimer ∧
    (resumeSorter s).web.magA = s.web.magA ∧ (resumeSorter s).web.magB = s.web.magB ∧
    (resumeSorter s).cut.offset = s.cut.offset ∧ (resumeSorter s).cut.missCount = s.cut.missCount ∧
    (resumeSorter s).cut.nextCut = s.cut.nextCut ∧ (resumeSorter s).cut.markRun = s.cut.markRun ∧
    (resumeSorter s).cut.gaps = s.cut.gaps ∧ (resumeSorter s).cut.carried = s.cut.carried ∧
    (resumeSorter s).cut.leadingMade = s.cut.leadingMade ∧ (resumeSorter s).cut.abandoned = s.cut.abandoned ∧
    (resumeSorter s).srt.bins = s.srt.bins ∧ (resumeSorter s).srt.overflow = s.srt.overflow ∧
    (resumeSorter s).srt.reject = s.srt.reject ∧ (resumeSorter s).srt.dropping = s.srt.dropping ∧
    (resumeSorter s).srt.windows = s.srt.windows := by
  unfold resumeSorter; (repeat' split) <;> simp

@[simp] theorem chooseCut_frame (s : State) :
    (chooseCut s).lnk = s.lnk ∧ (chooseCut s).ort = s.ort ∧ (chooseCut s).sch = s.sch ∧ (chooseCut s).ifu = s.ifu ∧
    (chooseCut s).exu = s.exu ∧ (chooseCut s).srt = s.srt ∧ (chooseCut s).prc = s.prc ∧ (chooseCut s).set = s.set ∧
    (chooseCut s).free = s.free ∧ (chooseCut s).pending = s.pending ∧ (chooseCut s).web.run = s.web.run ∧
    (chooseCut s).web.active = s.web.active ∧ (chooseCut s).web.threading = s.web.threading ∧
    (chooseCut s).web.fIn = s.web.fIn ∧ (chooseCut s).web.c = s.web.c ∧ (chooseCut s).web.state = s.web.state ∧
    (chooseCut s).web.ask = s.web.ask ∧ (chooseCut s).web.flush = s.web.flush ∧
    (chooseCut s).web.flushTimer = s.web.flushTimer ∧ (chooseCut s).web.magA = s.web.magA ∧
    (chooseCut s).web.magB = s.web.magB ∧ (chooseCut s).cut.offset = s.cut.offset ∧
    (chooseCut s).cut.missCount = s.cut.missCount ∧ (chooseCut s).cut.abandoned = s.cut.abandoned := by
  unfold chooseCut; (repeat' split) <;> simp

@[simp] theorem gapFound_frame (g : GapRecord) (a : Nat) (m : Nat) (s : State) :
    (gapFound g a m s).lnk = s.lnk ∧ (gapFound g a m s).ort = s.ort ∧ (gapFound g a m s).sch = s.sch ∧
    (gapFound g a m s).ifu = s.ifu ∧ (gapFound g a m s).exu = s.exu ∧ (gapFound g a m s).srt = s.srt ∧
    (gapFound g a m s).prc = s.prc ∧ (gapFound g a m s).set = s.set ∧ (gapFound g a m s).free = s.free ∧
    (gapFound g a m s).pending = s.pending ∧ (gapFound g a m s).web.run = s.web.run ∧
    (gapFound g a m s).web.active = s.web.active ∧ (gapFound g a m s).web.threading = s.web.threading ∧
    (gapFound g a m s).web.fIn = s.web.fIn ∧ (gapFound g a m s).web.c = s.web.c ∧
    (gapFound g a m s).web.state = s.web.state ∧ (gapFound g a m s).web.ask = s.web.ask ∧
    (gapFound g a m s).web.flush = s.web.flush ∧ (gapFound g a m s).web.flushTimer = s.web.flushTimer ∧
    (gapFound g a m s).web.magA = s.web.magA ∧ (gapFound g a m s).web.magB = s.web.magB ∧
    (gapFound g a m s).cut.leadingMade = s.cut.leadingMade ∧ (gapFound g a m s).cut.abandoned = s.cut.abandoned := by
  simp [gapFound]

@[simp] theorem gapUnmarked_frame (g : GapRecord) (s : State) :
    (gapUnmarked g s).lnk = s.lnk ∧ (gapUnmarked g s).ort = s.ort ∧ (gapUnmarked g s).sch = s.sch ∧
    (gapUnmarked g s).ifu = s.ifu ∧ (gapUnmarked g s).exu = s.exu ∧ (gapUnmarked g s).srt = s.srt ∧
    (gapUnmarked g s).prc = s.prc ∧ (gapUnmarked g s).set = s.set ∧ (gapUnmarked g s).free = s.free ∧
    (gapUnmarked g s).pending = s.pending ∧ (gapUnmarked g s).web.run = s.web.run ∧
    (gapUnmarked g s).web.active = s.web.active ∧ (gapUnmarked g s).web.threading = s.web.threading ∧
    (gapUnmarked g s).web.fIn = s.web.fIn ∧ (gapUnmarked g s).web.c = s.web.c ∧
    (gapUnmarked g s).web.state = s.web.state ∧ (gapUnmarked g s).web.ask = s.web.ask ∧
    (gapUnmarked g s).web.flush = s.web.flush ∧ (gapUnmarked g s).web.flushTimer = s.web.flushTimer ∧
    (gapUnmarked g s).web.magA = s.web.magA ∧ (gapUnmarked g s).web.magB = s.web.magB ∧
    (gapUnmarked g s).cut.offset = s.cut.offset ∧ (gapUnmarked g s).cut.missCount = s.cut.missCount ∧
    (gapUnmarked g s).cut.leadingMade = s.cut.leadingMade ∧ (gapUnmarked g s).cut.abandoned = s.cut.abandoned := by
  simp [gapUnmarked]

@[simp] theorem dropCompletion_frame (s : State) :
    (dropCompletion s).ifu = s.ifu ∧ (dropCompletion s).exu = s.exu ∧ (dropCompletion s).prc = s.prc ∧
    (dropCompletion s).set = s.set ∧ (dropCompletion s).free = s.free ∧ (dropCompletion s).pending = s.pending ∧
    (dropCompletion s).web.run = s.web.run ∧ (dropCompletion s).web.active = s.web.active ∧
    (dropCompletion s).web.threading = s.web.threading ∧ (dropCompletion s).web.fIn = s.web.fIn ∧
    (dropCompletion s).web.c = s.web.c ∧ (dropCompletion s).web.state = s.web.state ∧
    (dropCompletion s).web.ask = s.web.ask ∧ (dropCompletion s).web.flush = s.web.flush ∧
    (dropCompletion s).web.flushTimer = s.web.flushTimer ∧ (dropCompletion s).web.magA = s.web.magA ∧
    (dropCompletion s).web.magB = s.web.magB ∧ (dropCompletion s).cut.offset = s.cut.offset ∧
    (dropCompletion s).cut.missCount = s.cut.missCount ∧ (dropCompletion s).cut.nextCut = s.cut.nextCut ∧
    (dropCompletion s).cut.markRun = s.cut.markRun ∧ (dropCompletion s).cut.gaps = s.cut.gaps ∧
    (dropCompletion s).cut.carried = s.cut.carried ∧ (dropCompletion s).cut.leadingMade = s.cut.leadingMade ∧
    (dropCompletion s).cut.abandoned = s.cut.abandoned ∧ (dropCompletion s).ort.seq = s.ort.seq := by
  unfold dropCompletion; (repeat' split) <;> simp

@[simp] theorem cutAppend_frame (e : WebEntry) (s : State) :
    (cutAppend e s).lnk = s.lnk ∧ (cutAppend e s).ort = s.ort ∧ (cutAppend e s).sch = s.sch ∧
    (cutAppend e s).ifu = s.ifu ∧ (cutAppend e s).exu = s.exu ∧ (cutAppend e s).srt = s.srt ∧
    (cutAppend e s).prc = s.prc ∧ (cutAppend e s).set = s.set ∧ (cutAppend e s).free = s.free ∧
    (cutAppend e s).pending = s.pending ∧ (cutAppend e s).web.run = s.web.run ∧
    (cutAppend e s).web.active = s.web.active ∧ (cutAppend e s).web.threading = s.web.threading ∧
    (cutAppend e s).web.fIn = s.web.fIn ∧ (cutAppend e s).web.c = s.web.c ∧ (cutAppend e s).web.state = s.web.state ∧
    (cutAppend e s).web.ask = s.web.ask ∧ (cutAppend e s).web.flush = s.web.flush ∧
    (cutAppend e s).web.flushTimer = s.web.flushTimer ∧ (cutAppend e s).web.magA = s.web.magA ∧
    (cutAppend e s).web.magB = s.web.magB ∧ (cutAppend e s).cut.offset = s.cut.offset ∧
    (cutAppend e s).cut.missCount = s.cut.missCount ∧ (cutAppend e s).cut.abandoned = s.cut.abandoned := by
  unfold cutAppend; dsimp only
  (repeat' apply And.intro) <;> (repeat' (first | exact Eq.refl _ | (simp; done) | split))

@[simp] theorem appendRun_frame (f : Frame) (s : State) :
    (appendRun f s).lnk = s.lnk ∧ (appendRun f s).ort = s.ort ∧ (appendRun f s).sch = s.sch ∧
    (appendRun f s).exu = s.exu ∧ (appendRun f s).srt = s.srt ∧ (appendRun f s).prc = s.prc ∧
    (appendRun f s).set = s.set ∧ (appendRun f s).free = s.free ∧ (appendRun f s).pending = s.pending ∧
    (appendRun f s).web.run = s.web.run ∧ (appendRun f s).web.active = s.web.active ∧
    (appendRun f s).web.threading = s.web.threading ∧ (appendRun f s).web.fIn = s.web.fIn ∧
    (appendRun f s).web.c = s.web.c ∧ (appendRun f s).web.state = s.web.state ∧ (appendRun f s).web.ask = s.web.ask ∧
    (appendRun f s).web.flush = s.web.flush ∧ (appendRun f s).web.flushTimer = s.web.flushTimer ∧
    (appendRun f s).web.magA = s.web.magA ∧ (appendRun f s).web.magB = s.web.magB ∧
    (appendRun f s).cut.offset = s.cut.offset ∧ (appendRun f s).cut.missCount = s.cut.missCount ∧
    (appendRun f s).cut.abandoned = s.cut.abandoned ∧ (appendRun f s).ifu.tags = s.ifu.tags := by
  simp [appendRun]

@[simp] theorem startRun_frame (f : Frame) (s : State) :
    (startRun f s).ort = s.ort ∧ (startRun f s).srt = s.srt ∧ (startRun f s).prc = s.prc ∧
    (startRun f s).set = s.set ∧ (startRun f s).free = s.free ∧ (startRun f s).pending = s.pending ∧
    (startRun f s).web.active = s.web.active ∧ (startRun f s).web.threading = s.web.threading ∧
    (startRun f s).web.fIn = s.web.fIn ∧ (startRun f s).web.c = s.web.c ∧ (startRun f s).web.state = s.web.state ∧
    (startRun f s).web.ask = s.web.ask ∧ (startRun f s).web.magA = s.web.magA ∧
    (startRun f s).web.magB = s.web.magB ∧ (startRun f s).cut.offset = s.cut.offset ∧
    (startRun f s).cut.missCount = s.cut.missCount ∧ (startRun f s).cut.abandoned = s.cut.abandoned ∧
    (startRun f s).ifu.tags = s.ifu.tags ∧ (startRun f s).sch.changeover = s.sch.changeover := by
  simp [startRun]

@[simp] theorem runStart_frame (s : State) :
    (runStart s).ort = s.ort ∧ (runStart s).srt = s.srt ∧ (runStart s).prc = s.prc ∧ (runStart s).set = s.set ∧
    (runStart s).free = s.free ∧ (runStart s).pending = s.pending ∧ (runStart s).web.active = s.web.active ∧
    (runStart s).web.threading = s.web.threading ∧ (runStart s).web.fIn = s.web.fIn ∧ (runStart s).web.c = s.web.c ∧
    (runStart s).web.state = s.web.state ∧ (runStart s).web.ask = s.web.ask ∧ (runStart s).web.magA = s.web.magA ∧
    (runStart s).web.magB = s.web.magB ∧ (runStart s).cut.offset = s.cut.offset ∧
    (runStart s).cut.missCount = s.cut.missCount ∧ (runStart s).cut.abandoned = s.cut.abandoned ∧
    (runStart s).ifu.tags = s.ifu.tags ∧ (runStart s).sch.changeover = s.sch.changeover := by
  unfold runStart; (repeat' split) <;> simp

end Sys2Proof.Machine
end

