-- ==== Sys2Proof/Laws/PerInstr.lean ====
section
/-!
SUPPORT. Statements about every command as it is written, proved command by command.
-/

/-- A command that is a request has a kind below 0x80, which is where requests lie (R183), and is well formed exactly when
its body fits a Station frame (R171); every other command is well formed. -/
def Sys2Proof.Laws.RequestFits.Statement (i : Sys2Proof.Instr) : Prop :=
  match Sys2Proof.Machine.requestOf i with
  | some (kind, _, body) => kind.msb = false ∧ (i.wf = true ↔ body.length ≤ Sys2Proof.maxStationBody)
  | none => i.wf = true

namespace Sys2Proof.Laws.RequestFits

theorem orderSubmit (tag : Byte) (body : List Byte) : Statement (.orderSubmit tag body) := ⟨rfl, decide_eq_true_iff⟩

theorem orderQuery (tag : Byte) (body : List Byte) : Statement (.orderQuery tag body) := ⟨rfl, decide_eq_true_iff⟩

theorem orderCancel (tag : Byte) (body : List Byte) : Statement (.orderCancel tag body) := ⟨rfl, decide_eq_true_iff⟩

theorem orderPriority (tag : Byte) (body : List Byte) : Statement (.orderPriority tag body) :=
  ⟨rfl, decide_eq_true_iff⟩

theorem orderCollect (tag : Byte) (body : List Byte) : Statement (.orderCollect tag body) := ⟨rfl, decide_eq_true_iff⟩

theorem magLoad (tag : Byte) (body : List Byte) : Statement (.magLoad tag body) := ⟨rfl, decide_eq_true_iff⟩

theorem magUnload (tag : Byte) (body : List Byte) : Statement (.magUnload tag body) := ⟨rfl, decide_eq_true_iff⟩

theorem calibrate (tag : Byte) (body : List Byte) : Statement (.calibrate tag body) := ⟨rfl, decide_eq_true_iff⟩

theorem sizeWrite (tag : Byte) (body : List Byte) : Statement (.sizeWrite tag body) := ⟨rfl, decide_eq_true_iff⟩

theorem sizeRead (tag : Byte) (body : List Byte) : Statement (.sizeRead tag body) := ⟨rfl, decide_eq_true_iff⟩

theorem profileWrite (tag : Byte) (body : List Byte) : Statement (.profileWrite tag body) := ⟨rfl, decide_eq_true_iff⟩

theorem profileRead (tag : Byte) (body : List Byte) : Statement (.profileRead tag body) := ⟨rfl, decide_eq_true_iff⟩

theorem ladderWrite (tag : Byte) (body : List Byte) : Statement (.ladderWrite tag body) := ⟨rfl, decide_eq_true_iff⟩

theorem ladderRead (tag : Byte) (body : List Byte) : Statement (.ladderRead tag body) := ⟨rfl, decide_eq_true_iff⟩

theorem priceWrite (tag : Byte) (body : List Byte) : Statement (.priceWrite tag body) := ⟨rfl, decide_eq_true_iff⟩

theorem priceRead (tag : Byte) (body : List Byte) : Statement (.priceRead tag body) := ⟨rfl, decide_eq_true_iff⟩

theorem windowWrite (tag : Byte) (body : List Byte) : Statement (.windowWrite tag body) := ⟨rfl, decide_eq_true_iff⟩

theorem windowRead (tag : Byte) (body : List Byte) : Statement (.windowRead tag body) := ⟨rfl, decide_eq_true_iff⟩

theorem settingWrite (tag : Byte) (body : List Byte) : Statement (.settingWrite tag body) := ⟨rfl, decide_eq_true_iff⟩

theorem settingRead (tag : Byte) (body : List Byte) : Statement (.settingRead tag body) := ⟨rfl, decide_eq_true_iff⟩

theorem settingsSave (tag : Byte) (body : List Byte) : Statement (.settingsSave tag body) := ⟨rfl, decide_eq_true_iff⟩

theorem status (tag : Byte) (body : List Byte) : Statement (.status tag body) := ⟨rfl, decide_eq_true_iff⟩

theorem pathClear (tag : Byte) (body : List Byte) : Statement (.pathClear tag body) := ⟨rfl, decide_eq_true_iff⟩

theorem pathClearButton : Statement .pathClearButton := rfl

theorem sorterResume (tag : Byte) (body : List Byte) : Statement (.sorterResume tag body) := ⟨rfl, decide_eq_true_iff⟩

theorem headReset (tag : Byte) (body : List Byte) : Statement (.headReset tag body) := ⟨rfl, decide_eq_true_iff⟩

theorem reset (tag : Byte) (body : List Byte) : Statement (.reset tag body) := ⟨rfl, decide_eq_true_iff⟩

theorem resetTakesEffect : Statement .resetTakesEffect := rfl

theorem powerOnReset : Statement .powerOnReset := rfl

theorem stationFrameReceived (bytes : List Byte) : Statement (.stationFrameReceived bytes) := rfl

theorem imageFrameReceived (bytes : List Byte) : Statement (.imageFrameReceived bytes) := rfl

theorem frameGapTimeout (link : LinkId) : Statement (.frameGapTimeout link) := rfl

theorem transmitComplete : Statement .transmitComplete := rfl

theorem fetchSent : Statement .fetchSent := rfl

theorem fetchTimeout (fetchTag : Fin 8) : Statement (.fetchTimeout fetchTag) := rfl

theorem quarantineExpiry (fetchTag : Fin 8) : Statement (.quarantineExpiry fetchTag) := rfl

theorem warmUpCompletion : Statement .warmUpCompletion := rfl

theorem headFaultEvent : Statement .headFaultEvent := rfl

theorem exposureRunStart : Statement .exposureRunStart := rfl

theorem exposureFeedStep : Statement .exposureFeedStep := rfl

theorem flushTimerExpiry : Statement .flushTimerExpiry := rfl

theorem threadedEvent : Statement .threadedEvent := rfl

theorem paperEndSensor : Statement .paperEndSensor := rfl

theorem cutterFeedStep (markSeen : Bool) : Statement (.cutterFeedStep markSeen) := rfl

theorem cutCompletion : Statement .cutCompletion := rfl

theorem bladeJam : Statement .bladeJam := rfl

theorem densitometerReading (red green blue : BitVec 10) : Statement (.densitometerReading red green blue) := rfl

theorem dropStart : Statement .dropStart := rfl

theorem dropCompletion : Statement .dropCompletion := rfl

theorem transportJam : Statement .transportJam := rfl

theorem binSensorEvent (bin : Fin 26) (samples : List Occupancy) : Statement (.binSensorEvent bin samples) := rfl

theorem idleTimerExpiry : Statement .idleTimerExpiry := rfl

theorem saveStageCompletion : Statement .saveStageCompletion := rfl

theorem memoryWriteFault : Statement .memoryWriteFault := rfl

end Sys2Proof.Laws.RequestFits
end

