-- ==== Sys2Proof/Tests/Slice0.lean ====
section
/-!
SUPPORT. Tests: ill-formed commands, worked values of the spec, single steps, and for every statement with hypotheses
states and operands that meet all of them, clause by clause.
-/
namespace Sys2Proof.Tests

open Sys2Proof Sys2Proof.Machine

/-! ### Well-formedness -/

/-- Every request with a given body. -/
def requests (body : List Byte) : List Instr :=
  [.orderSubmit 0 body, .orderQuery 0 body, .orderCancel 0 body, .orderPriority 0 body, .orderCollect 0 body,
   .magLoad 0 body, .magUnload 0 body, .calibrate 0 body, .sizeWrite 0 body, .sizeRead 0 body, .profileWrite 0 body,
   .profileRead 0 body, .ladderWrite 0 body, .ladderRead 0 body, .priceWrite 0 body, .priceRead 0 body,
   .windowWrite 0 body, .windowRead 0 body, .settingWrite 0 body, .settingRead 0 body, .settingsSave 0 body,
   .status 0 body, .pathClear 0 body, .sorterResume 0 body, .headReset 0 body, .reset 0 body]

theorem test_wf_refuses_long_bodies : ∀ i ∈ requests (List.replicate 1025 0), i.wf = false := by decide +kernel

theorem test_wf_admits_longest_bodies : ∀ i ∈ requests (List.replicate 1024 0), i.wf = true := by decide +kernel

/-! ### Worked values of the spec -/

/-- The example entry of R144. -/
def tiers : PriceEntry := ⟨true, 35, ⟨10, 30⟩, ⟨25, 26⟩, ⟨50, 22⟩⟩

theorem test_unit_prices : [1, 9, 10, 24, 25, 49, 50, 792].map tiers.unitPrice = [35, 35, 30, 30, 26, 26, 22, 22] := by
  decide

theorem test_dwells : dwellOf 0 = 16 ∧ dwellOf 255 = 31 ∧ dwellOf 4095 = 1046528 := by decide

theorem test_crc_check_value : crc16 [0x31, 0x32, 0x33, 0x34, 0x35, 0x36, 0x37, 0x38, 0x39] = 0x29B1 := by decide +kernel

theorem test_default_ladder : ladderIndex Ladder.default.thresholds 31 = none ∧
    ladderIndex Ladder.default.thresholds 32 = some 0 ∧ ladderIndex Ladder.default.thresholds 1023 = some 15 := by
  decide +kernel

theorem test_no_command_has_bits : ∀ w < 16, decodeTableWord 8 w = none := by decide

/-! ### States -/

/-- The part after its warm-up, nothing waiting or being sent. -/
def up : State :=
  { State.reset with
    lnk := { Lnk.atReset with power := .active }
    exu := { State.reset.exu with head := .ready } }

theorem takes {s : State} (h : s.lnk = up.lnk) : Takes s := by
  constructor <;> rw [h] <;> decide

theorem undisturbed {s : State} (h : s.lnk.waiting = []) : Undisturbed s := Or.inl h

/-- A line of two copies of the whole of a 1000 × 1200 image, on size code 2. -/
def aLine : Line := ⟨77, 1000, 1200, none, 2, .gloss, 2, 0, 0, 0, 0, 35, 0, 1, 0, none, false⟩

/-- An ACTIVE order 7 with that line and bin 3. -/
def anOrder : Order :=
  ⟨7, 17, 1, 8, false, 0, 1, .active, [aLine], [3], false, 70, none, false, false, false, false, ⟨25, 5⟩⟩

/-- The order's first print, on magazine A. -/
def aPrint : Frame := ⟨1, .print ⟨0, 7, 1, 1, 2⟩, .a, 1520, 20, true, false, none, false⟩

/-- A control strip on magazine A. -/
def aStrip : Frame := ⟨2, .strip, .a, 1520, 20, true, false, none, false⟩

/-- The order in slot 0, in a given state. -/
def holding (x : OrderState) : State := up.setOrt ⟨(List.replicate 64 none).set 0 (some { anOrder with state := x }), 1⟩

/-- Size code 2 and its gloss price enabled. -/
def priced : State :=
  { up with
    exu := { up.exu with sizes := up.exu.sizes.set 2 ⟨true, 127, 1520, 20, 16⟩ }
    prc := ⟨up.prc.prices.set 6 tiers⟩ }

/-- A READY magazine with 127 mm gloss paper. -/
def aRoll : MagRecord := ⟨.ready, 127, .gloss, 100000, 0, ⟨0, 0, 0⟩, ⟨none, none, none⟩, false⟩

/-- Magazine A threaded, the web READY with an empty web map. -/
def threaded : State := { up with web := { up.web with magA := aRoll, active := some .a, state := .ready, fIn := 4200 } }

/-- An entry of the web map: the print, EXPOSED, its mark printed. -/
def aEntry : WebEntry := ⟨aPrint, 4200, .exposed, .printed, some 5730⟩

/-- The print on the web map, its run completed. -/
def onWeb : State :=
  { threaded with web := { threaded.web with map := [aEntry], fIn := 5740, c := 0 } }

/-- The print being exposed, at its first step. -/
def exposing : State :=
  { onWeb with
    exu := { onWeb.exu with head := .exposing }
    web := { onWeb.web with
      map := [{ aEntry with webState := .exposing, mark := .pending }]
      fIn := 4200
      run := some ⟨0, 1520, 20, 20000⟩ } }

/-- The print in transit, to be dropped. -/
def dropping : State := { up with srt := { up.srt with transit := [⟨aPrint, .exposed, .none, some 3⟩], dropping := true } }

/-- The submission of the order. -/
def aSubmission : Submission := ⟨7, 17, 1, 8, false, 0, [⟨77, 1000, 1200, none, 2, 0, 2, 0, 0, 0, 0⟩]⟩

/-! ### Single steps -/

theorem test_power_on_wakes : ∃ t, exec .warmUpCompletion State.reset = .next t ∧ t.lnk.power = .active ∧
    t.exu.head = .ready := ⟨_, rfl, by decide +kernel, by decide +kernel⟩

theorem test_submit_quotes : ∃ t, exec (.orderSubmit 9 aSubmission.bytes) priced = .next t ∧
    t.lnk.tx = some ⟨0x81, 9, [0x00, 0, 1, 0, 0, 0, 70, 0, 0, 0, 0], false⟩ :=
  ⟨_, rfl, by decide +kernel⟩

theorem test_feed_step_moves_paper : ∃ t, exec .exposureFeedStep exposing = .next t ∧ t.web.fIn = 4201 ∧
    t.web.magA.remaining = 99999 := ⟨_, rfl, by decide +kernel, by decide +kernel⟩

theorem test_drop_credits_print : ∃ t, exec .dropCompletion (dropping.setOrt (holding .active).ort) = .next t ∧
    deliveredOf t 0 7 1 = some 1 := ⟨_, rfl, by decide +kernel⟩

theorem test_power_on_forgets_orders : ∃ t, exec .powerOnReset (holding .active) = .next t ∧
    t.ort.slots = List.replicate 64 none := ⟨_, rfl, by decide +kernel⟩

/-! ### The hypotheses of the statements can be met: steps and requests -/

theorem wit_StepTakesFrontCommand : ∃ s : State, s.pending = [.status 1 []] := ⟨up.setPending [.status 1 []], rfl⟩

/-- A threaded web with the print committed and primed. -/
def runnable : State :=
  { threaded with
    sch := { threaded.sch with queue := [aPrint], committed := true }
    ifu := { threaded.ifu with primed := true } }

theorem wit_StepOnEmptyQueue : (runnable.pending = [] ∧ runReady runnable = true) ∧
    (let s := { dropping with srt := { dropping.srt with dropping := false } }
     s.pending = [] ∧ runReady s = false ∧ dropReady s = true) ∧
    (up.pending = [] ∧ runReady up = false ∧ dropReady up = false) := by decide +kernel

theorem wit_RequestReachesItsOwner : ∃ c kind tag body s, requestOf c = some (kind, tag, body) ∧ c.wf = true ∧ Takes s ∧
    lengthFits kind.toNat body = true := ⟨.headReset 1 [], _, _, _, up, rfl, rfl, takes rfl, by decide⟩

theorem wit_RequestNotCarriedOut :
    (∃ c kind tag body s, requestOf c = some (kind, tag, body) ∧ c.wf = true ∧ Takes s ∧
      lengthFits kind.toNat body = false) ∧
    (∃ c kind tag body, ∃ s : State, requestOf c = some (kind, tag, body) ∧ c.wf = true ∧ s.lnk.waiting = [] ∧
      s.lnk.replies.length < 4 ∧ s.lnk.resetPending = false ∧ s.lnk.power = .waking) ∧
    (∃ c kind tag body, ∃ s : State, requestOf c = some (kind, tag, body) ∧ c.wf = true ∧ s.lnk.waiting = [] ∧
      s.lnk.replies.length < 4 ∧ s.lnk.resetPending = false ∧ s.lnk.power = .standby) :=
  ⟨⟨.headReset 1 [0], _, _, _, up, rfl, rfl, takes rfl, by decide⟩,
   ⟨.headReset 1 [], _, _, _, State.reset, rfl, rfl, by decide, by decide, by decide, by decide⟩,
   ⟨.headReset 1 [], _, _, _, up.setLnk { up.lnk with power := .standby }, rfl, rfl, by decide, by decide, by decide,
    by decide⟩⟩

/-- Body lengths at the edges of the kind table. -/
theorem test_fixed_lengths : lengthFits 0x24 (List.replicate 48 0) = true ∧ lengthFits 0x24 (List.replicate 47 0) = false ∧
    lengthFits 0x3C [] = true ∧ lengthFits 0x01 [] = true ∧ lengthFits 0x06 [] = false := by decide +kernel

theorem wit_RefusedRequestChangesNothing :
    (ownerAnswer 0x3A [] up).2.head? ≠ some 0x00 ∧ (up.lnk.power = .active ∧ lengthFits 0x38 [0] = false) ∧
    State.reset.lnk.power ≠ .active := by decide +kernel

/-- Two lines of the same size and surface, ten copies together, with a discount and corrections beyond their ranges. -/
def clampedSubmission : Submission :=
  { aSubmission with
    discount := 51
    lines := [⟨77, 1000, 1200, none, 2, 0, 2, 9, -9, 8, -8⟩, ⟨78, 1000, 1200, none, 2, 0, 8, 0, 0, 0, 0⟩] }

theorem wit_OrderSubmitAccepted : (∀ sub, sub = aSubmission ∨ sub = clampedSubmission → Takes priced ∧
      sub.bytes.length ≤ 1024 ∧ readSubmission sub.bytes = some sub ∧ findOrder priced.ort.slots sub.number = none ∧
      submissionFault priced sub = none ∧ freeSlot priced.ort.slots = some 0) ∧
    clampedSubmission.lines[1]? = some ⟨78, 1000, 1200, none, 2, 0, 8, 0, 0, 0, 0⟩ := by
  refine ⟨fun sub h => ⟨takes rfl, ?_⟩, by decide⟩
  rcases h with h | h <;> subst h <;> decide +kernel

theorem test_submit_clamps_and_prices : (acceptedOrder priced clampedSubmission).lines.map Line.price = [30, 30] ∧
    (acceptedOrder priced clampedSubmission).lines.map Line.density = [8, 0] ∧
    (acceptedOrder priced clampedSubmission).submitFlags = 3 := by decide +kernel

theorem wit_OrderSubmitRefused : Takes (holding .active) ∧ readSubmission [] = none ∧
    (findOrder (holding .active).ort.slots 7 = some (0, anOrder) ∧ anOrder.subTag = aSubmission.subTag ∧
      readSubmission aSubmission.bytes = some aSubmission) ∧
    (let sub := { aSubmission with subTag := 18 }
     readSubmission sub.bytes = some sub ∧ anOrder.subTag ≠ sub.subTag) ∧
    (findOrder up.ort.slots 7 = none ∧ submissionFault up aSubmission = some 1) ∧
    (let s := priced.setOrt ⟨List.replicate 64 (some { anOrder with number := 8 }), 1⟩
     Takes s ∧ findOrder s.ort.slots 7 = none ∧ submissionFault s aSubmission = none ∧ freeSlot s.ort.slots = none) :=
  ⟨takes rfl, by decide +kernel, by decide +kernel, by decide +kernel, by decide +kernel, takes rfl, by decide +kernel⟩

theorem wit_OrderQueryAndStatus : Takes (holding .active) ∧
    findOrder (holding .active).ort.slots (num [7, 0, 0, 0]) = some (0, anOrder) ∧
    findOrder (holding .active).ort.slots (num [8, 0, 0, 0]) = none := ⟨takes rfl, by decide +kernel⟩

/-- The order with number 7 in slot 0 has the state it was placed with. -/
theorem holding_order (x : OrderState) : Takes (holding x) ∧
    findOrder (holding x).ort.slots (num [7, 0, 0, 0]) = some (0, { anOrder with state := x }) :=
  ⟨takes rfl, by cases x <;> decide +kernel⟩

/-- In `holding` only slot 0 is occupied. -/
theorem holding_alone (x : OrderState) {i : Nat} {o : Order} (h : (holding x).ort.slots[i]? = some (some o)) :
    i = 0 ∧ o = { anOrder with state := x } := by
  change ((List.replicate 64 none).set 0 (some { anOrder with state := x }))[i]? = some (some o) at h
  rw [List.getElem?_set] at h
  split at h
  · simp_all
  · exact absurd (List.eq_of_mem_replicate (List.mem_of_getElem? h)) nofun

theorem wit_OrderCancelPriorityCollect :
    (∀ x, Takes (holding x) ∧
      findOrder (holding x).ort.slots (num [7, 0, 0, 0]) = some (0, { anOrder with state := x }) ∧
      (∀ (j : Nat) (o : Order), (holding x).ort.slots[j]? = some (some o) → o.number = 7 → j = 0)) ∧
    (OrderState.failed.ended = true ∧ OrderState.complete.ended = true ∧ OrderState.failing.ended = false ∧
      OrderState.active.ended = false ∧ OrderState.accepted.ended = false) ∧
    (OrderState.failing.schedulable = false ∧ OrderState.active.schedulable = true) ∧
    (∀ b : Byte, num (([7, 0, 0, 0, b] : List Byte).take 4) = 7 ∧
      num (([7, 0, 0, 0, b] : List Byte).drop 4) = b.toNat) ∧
    (let s := (holding .active).setSch { (holding .active).sch with queue := [aStrip, aPrint], committed := true }
     Takes s ∧ committedHead s = some aStrip ∧ aPrint.ofOrder 7 = true) ∧
    (Takes up ∧ findOrder up.ort.slots (num [7, 0, 0, 0]) = none) := by
  refine ⟨fun x => ⟨(holding_order x).1, (holding_order x).2, fun j o h _ => (holding_alone x h).1⟩, by decide, by decide,
    by decide +kernel, ⟨takes rfl, by decide +kernel⟩, takes rfl, by decide +kernel⟩

theorem test_empty_bin_is_free_after_cancel :
    let s := (holding .active).setSrt { up.srt with
      bins := up.srt.bins.set 3 ⟨.assigned, some 7, 0, ⟨some .empty, some .empty, 3⟩⟩ }
    ∃ t, exec (.orderCancel 1 [7, 0, 0, 0]) s = .next t ∧
      t.srt.bins[3]? = some ⟨.free, none, 0, ⟨some .empty, some .empty, 3⟩⟩ := ⟨_, rfl, by decide +kernel⟩

/-! ### Losses and scheduling -/

/-- The order in a given state, its line with d, f, r and a failure cause. -/
def owing (x : OrderState) (d f r : Nat) (cause : Option FailCause) : State :=
  up.setOrt ⟨(List.replicate 64 none).set 0 (some { anOrder with
    state := x
    lines := [{ aLine with d := d, f := f, r := r, failed := cause }] }), 1⟩

/-- A loss of its print. -/
def aLoss (cause : LossCause) : LossReport := ⟨aPrint, ⟨0, 7, 1, 1, 2⟩, cause, .webMap, none⟩

theorem wit_LossesAccounted :
    (∀ x d f r cause, (owing x d f r cause).orderAt 0 7 = some { anOrder with
        state := x
        lines := [{ aLine with d := d, f := f, r := r, failed := cause }] }) ∧
    ((owing .active 1 1 0 none).set.settings.remakeLimit = 3 ∧ LossCause.sorterJam ≠ .imageMissing ∧
      (owing .active 1 1 0 none).set.settings.noticePriorities[NoticeKind.frameLost.index]? = some 9 ∧
      (owing .active 1 1 0 none).lnk.notices.length < 32) ∧
    { aPrint with exposure := some ⟨⟨0, 0, 4095⟩, ⟨16, 16, 40000⟩, .slow, true⟩ }.exposure.isSome = true ∧
    (let s := { owing .active 1 1 0 none with srt := { up.srt with
       transit := [⟨aPrint, .exposed, .none, some 3⟩], dropping := true } }
     Undisturbed s ∧ s.srt.ended = 0 ∧ s.srt.dropping = true ∧ s.srt.state ≠ .fault ∧
       s.srt.transit = ⟨aPrint, .exposed, .none, some 3⟩ :: [] ∧ aPrint.ref = some ⟨0, 7, 1, 1, 2⟩ ∧ aPrint.live = true) :=
  ⟨fun _ _ _ _ _ => rfl, by decide +kernel, rfl, undisturbed rfl, by decide +kernel⟩

/-- Losses at the edges of R159: counted below the remake limit, the line failed at it or by an image failure, not counted
in a path clearing. -/
theorem test_losses_at_the_limit :
    (accountLoss (aLoss .sorterJam) (owing .active 1 1 2 none)).orderAt 0 7 = some { anOrder with
      lines := [{ aLine with d := 1, f := 0, r := 3 }] } ∧
    ((accountLoss (aLoss .sorterJam) (owing .active 1 1 3 none)).orderAt 0 7).map Order.state = some .failed ∧
    ((accountLoss (aLoss .rowRange) (owing .active 0 2 0 none)).orderAt 0 7).map Order.state = some .failing ∧
    ((accountLoss (aLoss .pathClear) (owing .active 0 2 3 none)).orderAt 0 7).map Order.state = some .active := by
  decide +kernel

/-- The order's line with one copy left to schedule, on a web that can expose it: its magazine, or the other. -/
def selectable (active : Mag) (changeover : Changeover) : State :=
  { threaded with
    ort := (holding .active).ort
    sch := { threaded.sch with changeover := changeover }
    exu := priced.exu
    web := { threaded.web with active := some active }
    srt := { threaded.srt with bins := threaded.srt.bins.set 3 ⟨.assigned, some 7, 0, Sensor.unread⟩ } }

/-- `selectable` with a second order, of priority 12, for the paper of magazine B. -/
def selectableTwo : State :=
  let s := selectable .a .clear
  { s with
    ort := ⟨s.ort.slots.set 63 (some { anOrder with
      number := 8
      seq := 2
      priority := 12
      lines := [{ aLine with surface := .matte }] }), 2⟩
    web := { s.web with magB := { aRoll with surface := .matte } }
    set := { s.set with settings := { s.set.settings with changeoverPriority := 13 } } }

theorem wit_FramesScheduled :
    (let c : Candidate := ⟨0, anOrder, 1, aLine⟩
     (eligibleLines (selectable .a .clear) = [c] ∧ (selectable .a .clear).web.active = some .a ∧
       magUsable (selectable .a .clear) aLine .a = true ∧ anOrder.priority = 8) ∧
     (eligibleLines (selectable .b .clear) = [c] ∧ magUsable (selectable .b .clear) aLine .b = false) ∧
     (eligibleLines selectableTwo = [c, ⟨63, { anOrder with
        number := 8
        seq := 2
        priority := 12
        lines := [{ aLine with surface := .matte }] }, 1, { aLine with surface := .matte }⟩] ∧
       selectableTwo.set.settings.changeoverPriority = 13) ∧
     eligibleLines up = [] ∧ (∃ m, (selectable .a (.pending .b)).sch.changeover = .pending m) ∧
     (selectable .a .clear).ort.slots[c.slot]? = some (some c.order) ∧ c.order.line c.index = some c.line ∧
     (heldNumbers (selectable .a .clear)).length ≤ 52 ∧ anOrder.bins ≠ []) ∧
    (let o := { anOrder with state := .accepted, bins := [] }
     let s := (selectable .a .clear).setOrder 0 (some o)
     freeBinFor s o = some 0 ∧ s.srt.bins[0]? = some ⟨.free, none, 0, Sensor.unread⟩ ∧ (heldNumbers s).length ≤ 52) ∧
    (let s := threaded.setSch { threaded.sch with queue := [aStrip] }
     s.sch.committed = false ∧ aStrip.isStrip = true ∧ s.web.active = some aStrip.mag ∧
       (s.web.mag aStrip.mag).state = .ready) ∧
    (let s := (threaded.setSch { threaded.sch with queue := [aPrint] }).setWeb { threaded.web with active := some .b }
     s.sch.committed = false ∧ s.web.active ≠ some aPrint.mag) ∧
    (let s := onWeb.setSch { onWeb.sch with changeover := .pending .b }
     s.sch.changeover = .pending .b ∧ (∀ f ∈ s.sch.queue, f.mag ≠ .a) ∧ s.web.state = .ready ∧ s.web.map ≠ []) ∧
    (let s := onWeb.setSch { onWeb.sch with changeover := .pending .b, queue := [aPrint] }
     s.web.active = some .a ∧ ∃ f ∈ s.sch.queue, f.mag = .a) := by
  refine ⟨⟨by decide +kernel, by decide +kernel, by decide +kernel, by decide +kernel, ⟨.b, rfl⟩, by decide +kernel⟩,
    by decide +kernel, by decide +kernel, by decide +kernel, by decide +kernel, by decide +kernel⟩

/-! ### Tables and settings -/

/-- A size entry at the edges of its ranges. -/
def aSize : SizeEntry := ⟨false, 305, 6000, 200, -256⟩

/-- A window at the edges of its ranges. -/
def aWindow : Window := ⟨true, 999999, 19, 23, 1, 0xFF⟩

theorem wit_ProfileRequests :
    (let body : List Byte := [7, 0xFF, 0x0F, 0xFF, 0x0F, 0xFF, 0x0F]
     body.length = 7 ∧ num (body.take 1) = 7 ∧ field body 1 2 = 4095 ∧ field body 5 2 = 4095) ∧
    (let body : List Byte := [7, 0x00, 0x10, 0, 0, 0, 0]
     ¬ (field body 1 2 ≤ 4095)) ∧ (up.exu.profiles[(7 : Byte).toNat]?).isSome = true ∧ Takes up :=
  ⟨by decide +kernel, by decide +kernel, by decide +kernel, takes rfl⟩

theorem wit_LadderRequests : Takes up ∧ (readLadder Ladder.default.bytes).inRange = true ∧ Ladder.default.bytes.length = 48 ∧
    (readLadder (List.replicate 48 0xFF)).inRange = false ∧ Ladder.default.inRange = true ∧
    Ladder.default.thresholds.length = 16 ∧ Ladder.default.steps.length = 16 ∧
    (∀ v ∈ Ladder.default.steps, -128 ≤ v ∧ v ≤ 127) :=
  ⟨takes rfl, by decide +kernel⟩

theorem wit_EntryTableRequests :
    (aSize.inRange = true ∧ Takes (priced.setOrt (holding .active).ort) ∧
      (aSize.bytes 15).length = 10 ∧ num ((aSize.bytes 15).take 1) = 15 ∧ readSize (aSize.bytes 15) = some aSize ∧
      15 < num ((aSize.bytes 16).take 1) ∧ readSize ((aSize.bytes 2).set 1 2) = none ∧
      sizeBusy 2 aSize (priced.setOrt (holding .active).ort) = true ∧ sizeBusy 15 aSize up = false) ∧
    (tiers.inRange = true ∧ tiers.price1 < 2 ^ 16 ∧ tiers.tier4.price < 2 ^ 16 ∧
      (tiers.bytes 15 .lustre).length = 17 ∧ readPriceKey (tiers.bytes 15 .lustre) = some (15, .lustre) ∧
      readPrice (tiers.bytes 15 .lustre) = some tiers ∧ readPriceKey (tiers.bytes 16 .lustre) = none ∧
      readPrice ((tiers.bytes 15 .lustre).set 2 2) = none ∧
      readPriceKey ((tiers.bytes 15 .lustre).set 2 2) = some (15, .lustre) ∧
      priceBusy 2 .gloss { tiers with enabled := false } (priced.setOrt (holding .active).ort) = true ∧
      priceBusy 15 .lustre tiers up = false) ∧
    (aWindow.inRange = true ∧ readWindow (aWindow.bytes 7) = some aWindow ∧
      (aWindow.bytes 7).length = 10 ∧ num ((aWindow.bytes 7).take 1) = 7 ∧ 7 < num ((aWindow.bytes 8).take 1) ∧
      readWindow ({ aWindow with binCount := 2 }.bytes 7) = none ∧ readWindow ((aWindow.bytes 7).set 1 2) = none) :=
  ⟨⟨by decide +kernel, takes rfl, by decide +kernel⟩, by decide +kernel, by decide +kernel⟩


theorem wit_SettingRequests :
    (settingAllows 0x00 0 ≠ some true ∧ settingAllows 0x52 0 ≠ some true) ∧
    (settingAllows 0x09 4200 = some true ∧ webThreaded threaded = true ∧ webThreaded up = false) ∧
    (let s := up.setSrt { up.srt with overflow := ⟨false, 60, Sensor.unread⟩ }
     settingAllows 0x10 50 = some true ∧ capacityBusy 0x10 50 s = true ∧ Takes s) ∧
    (settingAllows 0x51 15 = some true ∧ capacityBusy 0x51 15 up = false ∧
      up.set.settings.noticePriorities.length = 18) ∧
    up.set.settings.get 0x01 = some 1 ∧ up.set.settings.get 0x00 = none ∧
    (settingAllows 0x10 50 = some true ∧ up.set.settings.get 0x10 ≠ some 50 ∧ capacityBusy 0x10 50 up = false) := by
  refine ⟨by decide +kernel, by decide +kernel, ⟨by decide +kernel, by decide +kernel, takes rfl⟩, by decide +kernel⟩

/-- A drop under way counts as one print more in its bin; a web that is cleared is threaded once the feeder is commanded. -/
theorem test_capacity_and_threading :
    (dropping.srt.bins[3]?.map OrderBin.count = some 0 ∧ capacityBusy 0x0F 0 dropping = true ∧
      capacityBusy 0x0F 1 dropping = false ∧ capacityBusy 0x0F 0 up = false) ∧
    (let s := threaded.setWeb { threaded.web with state := .clearing }
     webThreaded s = false ∧ webThreaded (s.setWeb { s.web with threading := some .a }) = true) := by decide +kernel

/-- A save in progress at a stage. -/
def saving (stage : Nat) : State := up.setSet { up.set with save := some ⟨SettingsImage.default, stage⟩ }

theorem wit_SettingsSaveStages : Takes up ∧ up.set.save = none ∧ Takes (saving 1) ∧ Undisturbed (saving 3) ∧
    (saving 3).set.save = some ⟨SettingsImage.default, 3⟩ ∧ (saving 1).set.save ≠ none :=
  ⟨takes rfl, rfl, takes rfl, undisturbed rfl, rfl, nofun⟩

/-! ### Paper, head and sorter -/

theorem wit_MagazineAndCalibrateRequests :
    (∃ x, readRoll up.set.settings.pathFixed [1, 127, 0, 0, 0x68, 0x10, 0, 0, 7] = some x ∧ x.length = 4200 ∧
      x.mag = .b ∧ loadRefused x.mag up = false ∧ (up.web.active = none ∧ up.web.state = .unthreaded) ∧
      loadRefused x.mag { up with web := { up.web with ask := some .b } } = true ∧
      (let s := { threaded with web := { threaded.web with magB := { aRoll with state := .empty }, active := some .b } }
       Takes s ∧ loadRefused x.mag s = false ∧ s.web.active = some x.mag ∧ s.web.state = .ready ∧
         ({ s with web := { s.web with state := .clearing } }).web.threading = none) ∧
      (let s := { threaded with web := { threaded.web with magB := aRoll } }
       Takes s ∧ loadRefused x.mag s = false ∧ s.web.active ≠ some x.mag ∧ (s.web.mag x.mag).state ≠ .absent)) ∧
    readRoll up.set.settings.pathFixed [1, 127, 0, 0, 0x67, 0x10, 0, 0, 7] = none ∧
    (Takes threaded ∧ unloadRefused .a threaded = true ∧ unloadRefused .b threaded = false ∧
      (threaded.web.mag .b).state = .absent) ∧
    (let s := { threaded with web := { threaded.web with active := none } }
     unloadRefused .a s = false ∧ (s.web.mag .a).state ≠ .absent) ∧ Mag.ofCode (1 : Byte).toNat = some .b ∧
    (Mag.ofCode (0 : Byte).toNat = some .a ∧ calibrateRefused .a threaded = false ∧ threaded.sch.mark .a = .none ∧
      calibrateRefused .b threaded = true) ∧
    (let s := threaded.setSch (threaded.sch.setMark .a .awaiting)
     Takes s ∧ calibrateRefused .a s = false ∧ s.sch.mark .a ≠ .none) :=
  ⟨⟨_, rfl, by decide +kernel, by decide +kernel, by decide +kernel, by decide +kernel, by decide +kernel,
     ⟨takes rfl, by decide +kernel⟩, takes rfl, by decide +kernel⟩,
   by decide +kernel, ⟨takes rfl, by decide +kernel⟩, by decide +kernel, by decide +kernel, by decide +kernel, takes rfl,
   by decide +kernel⟩

/-- The grounds of a refused load and CALIBRATE at their edges. -/
theorem test_paper_refusals :
    (loadRefused .a threaded = true ∧
      (let s := threaded.setWeb { threaded.web with magA := { aRoll with state := .empty, remaining := 0 } }
       loadRefused .a s = false ∧ loadRefused .a (s.setWeb { s.web with state := .fault }) = true ∧
         loadRefused .a (s.setWeb { s.web with map := [aEntry] }) = true)) ∧
    calibrateRefused .a (threaded.setSch { threaded.sch with changeover := .asked .b }) = true ∧
    calibrateRefused .a (threaded.setSch { threaded.sch with changeover := .pending .b }) = false := by decide +kernel

theorem wit_HeadResetWarms : (Takes up ∧ up.exu.head = .ready) ∧ (Takes exposing ∧ exposing.exu.head = .exposing) :=
  ⟨⟨takes rfl, rfl⟩, takes rfl, rfl⟩

/-- The piece being dropped jammed. -/
def jammed : State := { dropping with srt := { dropping.srt with dropping := false, jammed := true, state := .fault } }

theorem wit_SorterJamAndResume : (Takes up ∧ up.srt.state ≠ .fault) ∧ (Takes jammed ∧ jammed.srt.state = .fault) ∧
    (Undisturbed jammed ∧ Undisturbed dropping ∧ dropping.srt.state ≠ .fault ∧ dropping.srt.dropping = true ∧
      dropping.srt.transit ≠ []) ∧ (Undisturbed up ∧ up.srt.dropping = false) :=
  ⟨⟨takes rfl, nofun⟩, ⟨takes rfl, rfl⟩, ⟨undisturbed rfl, undisturbed rfl, nofun, rfl, nofun⟩, undisturbed rfl, rfl⟩

theorem wit_PathClearEmptiesPath : Takes onWeb ∧ (Undisturbed onWeb ∧ onWeb.lnk.power = .active) ∧
    (onWeb.web.ask = none ∧ onWeb.web.active = some .a ∧ (onWeb.web.mag .a).state.loaded = true ∧
      onWeb.set.settings.pathFixed ≤ (onWeb.web.mag .a).remaining) ∧
    (Takes up ∧ up.web.active = none ∧ up.web.ask = none) ∧
    (let s := onWeb.setWeb { onWeb.web with ask := some .b, active := none }
     Takes s ∧ s.web.ask = some .b ∧ (s.web.mag .b).state.loaded = false) ∧
    (Undisturbed State.reset ∧ State.reset.lnk.power ≠ .active) :=
  ⟨takes rfl, ⟨undisturbed rfl, rfl⟩, by decide +kernel, ⟨takes rfl, rfl, rfl⟩, ⟨takes rfl, by decide +kernel⟩,
   undisturbed rfl, nofun⟩

/-! ### The Station link -/

/-- A reply of a RESET being sent, the reset scheduled. -/
def resetting : State := up.setLnk { up.lnk with tx := some ⟨0xBC, 1, [0], true⟩, resetPending := true }

theorem wit_ResetSchedulesAndRequestsWait : Takes up ∧
    (requestOf (.status 1 []) = some (0x38, 1, []) ∧ (Instr.status 1 []).wf = true ∧ resetting.lnk.tx ≠ none ∧
      resetting.lnk.resetPending = true ∧ resetting.lnk.waiting.length < 2) ∧
    (let r : OutFrame := ⟨0xB8, 0, [0], false⟩
     let s := up.setLnk { up.lnk with tx := some r, replies := [r, r, r, r], waiting := [⟨0x38, 0, []⟩, ⟨0x38, 1, []⟩] }
     s.lnk.tx ≠ none ∧ 4 ≤ s.lnk.replies.length ∧ 2 ≤ s.lnk.waiting.length) :=
  ⟨takes rfl, by decide +kernel, by decide +kernel⟩

theorem wit_ResetTakesEffect : (sendingResetReply resetting = true ∧ resetting.web.active = none) ∧
    (let s := resetting.setIfu { resetting.ifu with
       tags := (resetting.ifu.tags.set 0 (.outstanding ⟨1, 77, 0, 1500⟩ (some 0) (some 40))).set 7
         (.expired ⟨1, 77, 1, 1500⟩ 160) }
     sendingResetReply s = true ∧ s.ifu.tags[0]? = some (.outstanding ⟨1, 77, 0, 1500⟩ (some 0) (some 40)) ∧
       s.ifu.tags[7]? = some (.expired ⟨1, 77, 1, 1500⟩ 160)) ∧
    (∀ n, n = 4199 ∨ n = 4200 →
      let s := resetting.setWeb { onWeb.web with magA := { aRoll with remaining := n } }
      sendingResetReply s = true ∧ s.web.active = some .a ∧ (s.web.mag .a).state.loaded = true ∧
        ((s.web.mag .a).remaining < s.set.settings.pathFixed ↔ n = 4199)) ∧
    (Undisturbed up ∧ sendingResetReply up = false) := by
  refine ⟨by decide +kernel, by decide +kernel, ?_, undisturbed rfl, rfl⟩
  rintro n (rfl | rfl) <;> decide +kernel

theorem wit_PowerOnReset : ∃ m, m ≠ crc16 (Config.imageBytes SettingsImage.default) := by
  by_cases h : crc16 (Config.imageBytes SettingsImage.default) = 0
  · exact ⟨1, by rw [h]; decide⟩
  · exact ⟨0, fun e => h e.symm⟩

theorem wit_StationFrameCarriesRequest :
    (requestOf (.status 1 []) = some (0x38, 1, []) ∧ (Instr.status 1 []).wf = true ∧ Takes up ∧
      up.lnk.stationRx = Framer.hunting) ∧ ((0x80 : Byte).msb = true ∧ Undisturbed up) :=
  ⟨⟨rfl, by decide, takes rfl, rfl⟩, by decide, undisturbed rfl⟩

/-- A fetch of row 0 of image 77 outstanding on tag 7, for one line of one pixel in slot 63. -/
def fetching : State :=
  up.setIfu { up.ifu with
    tags := up.ifu.tags.set 7 (.outstanding ⟨1, 77, 0, 1⟩ (some 63) (some 40))
    slots := up.ifu.slots.set 63 (.awaited 1 0 0 0 (some 7)) }

/-- The good answer to it. -/
def aData : List Byte := [0, 77, 0, 0, 0, 0, 0, 1, 0, 0xFF, 0x80, 0x00]

/-- The same answer with another status and no pixels. -/
def aRefusal (status : Byte) : List Byte := [status, 77, 0, 0, 0, 0, 0, 1, 0]

theorem wit_ImageFrameDelivered : (aData.length ≤ 12288 ∧ Undisturbed fetching ∧ fetching.lnk.imageRx = Framer.hunting) ∧
    fetching.ifu.tags[7]? = some (.outstanding ⟨1, 77, 0, 1⟩ (some 63) (some 40)) ∧
    fetching.ifu.slots[63]? = some (.awaited 1 0 0 0 (some 7)) ∧
    readData aData = some ⟨0, 77, 0, 1, [⟨0xFF, 0x80, 0x00⟩], true⟩ ∧
    (∀ n : Byte, ∃ m, readData (aRefusal n) = some m ∧ m.status = n.toNat ∧ m.imageId = 77 ∧ m.row = 0) ∧
    (let s := { fetching with sch := runnable.sch, ort := (holding .active).ort }
     Undisturbed s ∧ committedHead s = some aPrint ∧ aPrint.number = 1 ∧ aPrint.ref = some ⟨0, 7, 1, 1, 2⟩ ∧
       s.orderAt 0 7 = some anOrder ∧ anOrder.line 1 = some aLine ∧ aLine.failed = none) ∧
    (let e : WebEntry := { aEntry with webState := .exposing }
     let s := { fetching with
       web := { exposing.web with map := [e] }
       ort := (holding .active).ort
       ifu := { fetching.ifu with current := some ⟨1, aPrint.job, .a, 1520, 0⟩ } }
     Undisturbed s ∧ (∀ h, committedHead s = some h → h.number ≠ 1) ∧ (∃ c, s.ifu.current = some c ∧ c.frame = 1) ∧
       findEntry 1 s = some e ∧ e.frame.live = true ∧ (∃ e ∈ s.web.map, e.frame.number = 1) ∧
       (∀ g ∈ s.sch.queue, g.number ≠ 1) ∧ (heldNumbers s).length ≤ 52 ∧ s.orderAt 0 7 = some anOrder) := by
  refine ⟨⟨by decide, undisturbed rfl, rfl⟩, by decide +kernel, by decide +kernel, by decide +kernel, ?_,
    ⟨undisturbed rfl, by decide +kernel⟩, undisturbed rfl, nofun, ⟨_, rfl, rfl⟩, by decide +kernel⟩
  exact fun n => ⟨_, rfl, by simp [field, num, aRefusal], rfl, rfl⟩

theorem wit_GapTimeoutDiscards : (Undisturbed up ∧ up.lnk.stationRx.phase = .hunt ∧ up.lnk.imageRx.phase = .hunt) ∧
    (let fr := (feedAll 1024 Framer.hunting [0xA5, 0]).1
     let s := up.setLnk { up.lnk with stationRx := fr, imageRx := fr }
     Undisturbed s ∧ s.lnk.stationRx.phase ≠ .hunt ∧ s.lnk.imageRx.phase ≠ .hunt) :=
  ⟨⟨undisturbed rfl, rfl, rfl⟩, undisturbed rfl, by decide, by decide⟩

theorem wit_TransmitterTakesNext :
    (let f : OutFrame := ⟨0xB8, 0, [0], false⟩
     let s := up.setLnk { up.lnk with tx := some f, replies := [f] }
     Undisturbed s ∧ sendingResetReply s = false ∧ s.lnk.replies = f :: [] ∧ s.lnk.waiting = []) ∧
    (let n : Notice := ⟨.headFault, 12, 4, []⟩
     let s := up.setLnk { up.lnk with tx := some ⟨0xB8, 0, [0], false⟩, notices := [⟨.awake, 3, 1, []⟩, n,
       ⟨.cutterFault, 12, 5, []⟩] }
     Undisturbed s ∧ sendingResetReply s = false ∧ s.lnk.waiting = [] ∧ s.lnk.replies = [] ∧
       s.lnk.notices.Pairwise (fun a b => a.occurrence < b.occurrence) ∧ n ∈ s.lnk.notices ∧
       ∀ m ∈ s.lnk.notices, m.priority < n.priority ∨ (m.priority = n.priority ∧ n.occurrence ≤ m.occurrence)) ∧
    (Undisturbed up ∧ sendingResetReply up = false ∧ up.lnk.notices = []) :=
  ⟨⟨undisturbed rfl, rfl, rfl, rfl⟩, ⟨undisturbed rfl, by decide⟩, undisturbed rfl, rfl, rfl⟩

theorem wit_NoticeQueued : up.set.settings.get (0x40 + NoticeKind.awake.index) = some 3 ∧ up.lnk.notices.length < 32 ∧
    ((up.set.settings.put (0x40 + NoticeKind.awake.index) 0).get (0x40 + NoticeKind.awake.index) = some 0) ∧
    32 ≤ (up.setLnk { up.lnk with notices := List.replicate 32 ⟨.awake, 3, 0, []⟩ }).lnk.notices.length := by
  decide +kernel

/-! ### Image fetch -/

theorem wit_FetchSentStartsTimer :
    (let f : FetchFrame := ⟨7, []⟩
     let s := (fetching.setLnk { fetching.lnk with imageTx := some f, imageWaiting := [⟨6, []⟩] }).setIfu
       { fetching.ifu with tags := fetching.ifu.tags.set 7 (.outstanding ⟨1, 77, 0, 1⟩ (some 63) none) }
     Undisturbed s ∧ s.lnk.imageTx = some f ∧
       s.ifu.tags[f.tag]? = some (.outstanding ⟨1, 77, 0, 1⟩ (some 63) none) ∧
       ∀ g ∈ s.lnk.imageWaiting, g.tag ≠ f.tag) ∧
    (let s := up.setLnk { up.lnk with imageTx := some ⟨7, []⟩, imageWaiting := [⟨7, []⟩] }
     Undisturbed s ∧ ∃ g ∈ s.lnk.imageWaiting, g.tag = 7) ∧
    (∀ info slot, up.ifu.tags[7]? ≠ some (.outstanding info slot none)) ∧ (Undisturbed up ∧ up.lnk.imageTx = none) :=
  ⟨⟨undisturbed rfl, by decide +kernel⟩, ⟨undisturbed rfl, by decide +kernel⟩, nofun, undisturbed rfl, rfl⟩

theorem wit_FetchTimers : (Undisturbed fetching ∧
      fetching.ifu.tags[(7 : Fin 8).val]? = some (.outstanding ⟨1, 77, 0, 1⟩ (some 63) (some 40))) ∧
    (Undisturbed up ∧ (∀ info slot n, up.ifu.tags[(0 : Fin 8).val]? ≠ some (.outstanding info slot (some n))) ∧
      (∀ info n, up.ifu.tags[(0 : Fin 8).val]? ≠ some (.expired info n))) ∧
    (let s := up.setIfu { up.ifu with tags := up.ifu.tags.set 7 (.expired ⟨1, 77, 0, 1⟩ 160) }
     Undisturbed s ∧ s.ifu.tags[(7 : Fin 8).val]? = some (.expired ⟨1, 77, 0, 1⟩ 160)) :=
  ⟨⟨undisturbed rfl, by decide +kernel⟩, ⟨undisturbed rfl, nofun, nofun⟩, undisturbed rfl, by decide +kernel⟩

/-- The print at the head with its order, slot 63 AWAITED for line 0 without a tag where asked, or nothing yet. -/
def supplying (slot : LineSlot) : State :=
  { threaded with
    ort := (holding .active).ort
    sch := { threaded.sch with queue := [aPrint], committed := true }
    ifu := { threaded.ifu with slots := threaded.ifu.slots.set 63 slot } }

/-- The supply of that head. -/
def aSupply : Supply := ⟨1, ⟨0, 7, 1, 1, 2⟩, .a, 1520, 0, 32, true⟩

/-- The print exposed as IFU's current frame, one row of it in slot 63 serving lines 0 and 1. -/
def supplied : State :=
  { exposing with
    ort := (holding .active).ort
    ifu := { exposing.ifu with
      slots := exposing.ifu.slots.set 63 (.filled 1 0 1 0 [⟨1, 2, 3⟩])
      current := some ⟨1, aPrint.job, .a, 1520, 0⟩ } }

theorem wit_ImageRowsFetched :
    (supplies (supplying .empty) = [aSupply] ∧ needOf (supplying .empty) aSupply = some (.line 0) ∧
      needOf (supplying (.awaited 1 0 1 0 none)) aSupply = some (.retry 63 0) ∧
      needOf (supplying (.filled 1 0 1519 0 [])) aSupply = none ∧
      firstNeed (supplying .empty) [aSupply] = some (aSupply, .line 0) ∧
      (issueOne (supplying .empty)).isSome = true ∧ (issueOne (supplying (.awaited 1 0 1 0 none))).isSome = true) ∧
    (let s := supplying (.awaited 1 0 31 0 (some 7))
     s.ifu.slots[63]? = some (.awaited 1 0 31 0 (some 7)) ∧ committedHead s = some aPrint ∧ s.ifu.primed = false) ∧
    (supplied.ifu.current = some ⟨1, aPrint.job, .a, 1520, 0⟩ ∧
      supplied.ifu.slots[63]? = some (.filled 1 0 1 0 [⟨1, 2, 3⟩]) ∧
      findEntry 1 supplied = some { aEntry with webState := .exposing, mark := .pending }) ∧
    (∀ (i a b row : Nat) (px : List (RGB Byte)), exposing.ifu.slots[i]? ≠ some (.filled 1 a b row px)) ∧
    up.ifu.current = none ∧ up.ifu.tags.length = 8 ∧ up.sch.queue = [] ∧
    (let s := (supplying .empty).setWeb { threaded.web with active := none }
     s.sch.queue = [aPrint] ∧ ({ s.sch with committed := false }).committed = false ∧ s.web.active ≠ some aPrint.mag) := by
  refine ⟨by decide +kernel, by decide +kernel, by decide +kernel, ?_, rfl, rfl, rfl, rfl, rfl, nofun⟩
  intro i a b row px h
  have h := List.mem_of_getElem? h
  have : exposing.ifu.slots = List.replicate 64 .empty := rfl
  rw [this] at h
  exact absurd (List.eq_of_mem_replicate h) nofun

/-! ### Head, feed and web -/

theorem wit_WarmUpAndHeadFault : (Undisturbed State.reset ∧ State.reset.exu.head = .warming) ∧
    (Undisturbed up ∧ up.exu.head = .ready) ∧
    (let s := up.setExu { up.exu with head := .fault }
     Undisturbed s ∧ s.exu.head ≠ .warming) ∧
    (∀ w : FrameWeb, ∃ e r,
      let s := (supplied.setWeb { supplied.web with map := [{ aEntry with webState := w, mark := .pending }] })
      Undisturbed s ∧ s.exu.head = .exposing ∧ s.web.run = some r ∧ s.web.newest = some e ∧ e.webState = w ∧
        (∀ x ∈ s.web.map, x.frame.number = e.frame.number → x = e) ∧
        ∃ c, s.ifu.current = some c ∧ c.frame = e.frame.number) :=
  ⟨⟨undisturbed rfl, rfl⟩, ⟨undisturbed rfl, rfl⟩, ⟨undisturbed rfl, by decide⟩,
   fun w => ⟨{ aEntry with webState := w, mark := .pending }, ⟨0, 1520, 20, 20000⟩, undisturbed rfl, rfl, rfl, rfl, rfl,
     fun _ h _ => List.mem_singleton.mp h, ⟨1, aPrint.job, .a, 1520, 0⟩, rfl, rfl⟩⟩

theorem wit_RunStarts : (Undisturbed runnable ∧ runReady runnable = true) ∧ (Undisturbed up ∧ runReady up = false) :=
  ⟨⟨undisturbed rfl, by decide +kernel⟩, undisturbed rfl, by decide +kernel⟩

/-- The cut chosen as the first entry joins the web map: its leading cut, or its trailing one where the carried gap starts
at F_in. -/
theorem wit_run_chooses_cut :
    let carrying := fun start : Nat => runnable.setCut { runnable.cut with
      carried := some ⟨⟨9, start, 20, none, .missed, some 3, some 15⟩, .none⟩ }
    let chosen := fun s : State => (s.cut.nextCut, s.cut.carried.isSome, s.cut.leadingMade)
    (∀ start, Undisturbed (carrying start) ∧ runReady (carrying start) = true ∧ (carrying start).web.map = [] ∧
      (carrying start).cut.gaps = [] ∧ (carrying start).cut.nextCut = none ∧ (carrying start).cut.state ≠ .fault ∧
      (carrying start).cut.leadingMade = false ∧ (carrying start).web.fIn = 4200) ∧
    (∃ t, exec .exposureRunStart (carrying 4180) = .next t ∧
      chosen t = (some ⟨.leading, 1, 4200, 4203⟩, true, false)) ∧
    (∃ t, exec .exposureRunStart (carrying 4200) = .next t ∧
      chosen t = (some ⟨.trailing, 1, 5720, 5720⟩, false, true)) := by
  refine ⟨fun start => ⟨undisturbed rfl, (by decide +kernel : runReady runnable = true), rfl, rfl, rfl, nofun, rfl, rfl⟩,
    ⟨_, rfl, by decide +kernel⟩, _, rfl, by decide +kernel⟩

/-- The run of `exposing` at a given step. -/
def atStep (n : Nat) : State := exposing.setWeb { exposing.web with run := some ⟨n, 1520, 20, 20000⟩ }

/-- A flush under way behind the print. -/
def flushing : State := onWeb.setWeb { onWeb.web with flush := some 9955 }

theorem wit_FeedSteps :
    (Undisturbed (atStep 0) ∧ (atStep 0).web.run = some ⟨0, 1520, 20, 20000⟩ ∧ (atStep 0).web.active = some .a ∧
      (atStep 0).web.map ≠ [] ∧ (atStep 0).web.state ≠ .clearing) ∧
    (∀ n, n = 1519 ∨ n = 1520 ∨ n = 1530 ∨ n = 1539 → (atStep n).web.run = some ⟨n, 1520, 20, 20000⟩ ∧
      (atStep n).web.newest.map WebEntry.mark = some .pending) ∧
    (Undisturbed flushing ∧ flushing.web.run = none ∧ flushing.web.active = some .a ∧ flushDriven flushing = true ∧
      flushing.web.map ≠ [] ∧ flushing.web.state ≠ .clearing ∧ flushing.web.fIn + 1 < 9955 ∧
      1 < (flushing.web.mag .a).remaining) ∧
    (let s := flushing.setWeb { flushing.web with fIn := 9954, c := 5000 }
     flushDriven s = true ∧ s.web.newest = some aEntry ∧ flushEnd s aEntry + s.set.settings.pathFixed = 9955) ∧
    (let s := flushing.setWeb { flushing.web with magA := { aRoll with remaining := 1 } }
     flushDriven s = true ∧ (s.web.mag .a).remaining ≤ 1) ∧
    (Undisturbed onWeb ∧ onWeb.web.run = none ∧ flushDriven onWeb = false) := by
  refine ⟨⟨undisturbed rfl, by decide +kernel⟩, ?_, ⟨undisturbed rfl, by decide +kernel⟩, by decide +kernel,
    by decide +kernel, undisturbed rfl, by decide +kernel⟩
  rintro n (rfl | rfl | rfl | rfl) <;> decide +kernel

theorem test_mark_is_printed : ∃ t, exec .exposureFeedStep (atStep 1530) = .next t ∧ .headMark ∈ t.ports ∧
    t.web.map.map WebEntry.mark = [.printed] := ⟨_, rfl, by decide +kernel, by decide +kernel⟩

theorem wit_FlushTimerExpires :
    (let s := onWeb.setWeb { onWeb.web with flushTimer := some 20 }
     Undisturbed s ∧ s.web.flushTimer ≠ none ∧ s.web.newest = some aEntry ∧ s.web.active = some .a ∧
       s.web.fIn < aEntry.start + aEntry.frame.lf + aEntry.frame.gap + s.set.settings.markWindow +
         s.set.settings.pathFixed ∧ 0 < (s.web.mag .a).remaining ∧
       s.web.run = none ∧ flushDrive s ≠ some 9955 ∧ s.loop < s.set.settings.loopMax) ∧
    (Undisturbed onWeb ∧ onWeb.web.flushTimer = none) ∧ Instr.exposureFeedStep ≠ .powerOnReset :=
  ⟨⟨undisturbed rfl, by decide +kernel⟩, ⟨undisturbed rfl, rfl⟩, nofun⟩

/-- The arming test at the edge of its distance, and the completion of a run, which arms the timer. -/
theorem wit_flush_arming :
    (onWeb.web.newest = some aEntry ∧ onWeb.web.fIn < 5740 + onWeb.set.settings.markWindow + onWeb.set.settings.pathFixed ∧
      onWeb.web.state = .ready ∧ onWeb.web.run = none ∧ onWeb.web.flush = none ∧ onWeb.sch.queue = [] ∧
      onWeb.web.flushTimer = none ∧ (flushArmTest onWeb).web.flushTimer = some 20) ∧
    (let s := fun n : Nat => onWeb.setWeb { onWeb.web with fIn := n, flushTimer := some 7 }
     (flushArmTest (s 9954)).web.flushTimer = some 7 ∧ (flushArmTest (s 9955)).web.flushTimer = none) ∧
    (atStep 1539).lnk.waiting = [] ∧
    ∃ t, exec .exposureFeedStep (atStep 1539) = .next t ∧ t.web.run = none ∧ t.web.flushTimer = some 20 :=
  ⟨by decide +kernel, by decide +kernel, rfl, _, rfl, by decide +kernel⟩

/-- The flush comes to loop_max and pauses. -/
theorem test_flush_pauses :
    let s := flushing.setWeb { flushing.web with fIn := 9000, c := 1801 }
    flushDrive s = some 9955 ∧ ∃ t, exec .exposureFeedStep s = .next t ∧ t.web.flush = some 9955 ∧
      flushDrive t = none ∧ .exposureStop ∈ t.ports :=
  ⟨by decide +kernel, _, rfl, by decide +kernel, by decide +kernel, by decide +kernel⟩

/-- Magazine A being threaded, in a given web state. -/
def threading (x : WebState) : State := up.setWeb { up.web with magA := aRoll, threading := some .a, state := x }

theorem wit_ThreadedAndPaperEnd :
    (∀ x, Undisturbed (threading x) ∧ (threading x).web.threading = some .a ∧ (threading x).web.state = x ∧
      (threading x).web.ask = none ∧ (threading x).sch.changeover = .clear ∧ (threading x).cut.state ≠ .fault) ∧
    (threading .threading).ort.slots.all (· == none) = true ∧
    (∀ m, let s := (threading .changeover).setWeb { (threading .changeover).web with ask := some m }
      Undisturbed s ∧ s.web.threading = some .a ∧ s.web.state = .changeover ∧ s.web.ask = some m) ∧
    (Undisturbed up ∧ up.web.threading = none) ∧
    (Undisturbed exposing ∧ exposing.web.active = some .a ∧ (exposing.web.run ≠ none → exposing.web.map ≠ []) ∧
      exposing.web.state = .ready ∧ exposing.web.run ≠ none ∧
      (exposing.web.map.map fun x => x.frame.number).Nodup ∧
      ∃ e, exposing.web.newest = some e ∧ e.webState = .exposing ∧ e.mark = .pending ∧ e.frame.isStrip = false) ∧
    (let s := onWeb.setWeb { onWeb.web with state := .changeover }
     Undisturbed s ∧ s.web.active = some .a ∧ s.web.state = .changeover ∧ s.web.threading = none) ∧
    (let s := onWeb.setWeb { onWeb.web with state := .fault }
     Undisturbed s ∧ s.web.state = .fault ∧ s.web.active = some .a) ∧ (Undisturbed up ∧ up.web.state = .unthreaded) :=
  ⟨fun _ => ⟨undisturbed rfl, rfl, rfl, rfl, rfl, nofun⟩, by decide +kernel, fun _ => ⟨undisturbed rfl, rfl, rfl, rfl⟩,
   ⟨undisturbed rfl, rfl⟩,
   ⟨undisturbed rfl, rfl, nofun, rfl, nofun, by decide +kernel,
     { aEntry with webState := .exposing, mark := .pending }, rfl, rfl, rfl, rfl⟩,
   ⟨undisturbed rfl, by decide +kernel⟩, ⟨undisturbed rfl, rfl, rfl⟩, undisturbed rfl, rfl⟩

/-! ### Cutter -/

/-- The gap behind the print, its mark still to be found, its window read. -/
def aGap : GapRecord := ⟨1, 5720, 20, some 5730, .undecided, none, some 15⟩

/-- The cutter feeding toward the trailing cut of the print, C at a given value. -/
def feeding (c : Nat) : State :=
  { onWeb with
    web := { onWeb.web with c := c, fIn := 12000 }
    cut := { onWeb.cut with
      state := .feeding
      nextCut := some ⟨.trailing, 1, 5720, 5720⟩
      leadingMade := true
      gaps := [aGap] } }

/-- Two samples in a row have shown the mark, the first at a given place. -/
def markTwice (c first : Nat) : State :=
  (feeding c).setCut { (feeding c).cut with markRun := 2, markFirst := first, missCount := 2 }

/-- The step of the cutter that frees room lets a paused flush go on. -/
theorem test_flush_resumes :
    let s := (feeding 1801).setWeb { (feeding 1801).web with fIn := 9001, flush := some 9955 }
    flushDrive s = none ∧ ∃ t, exec (.cutterFeedStep false) s = .next t ∧ .flushFeed 9955 20000 ∈ t.ports :=
  ⟨by decide +kernel, _, rfl, by decide +kernel⟩

theorem wit_CutterFeedSteps :
    (Undisturbed (feeding 4000) ∧ cutterDriven (feeding 4000) = true ∧ (feeding 4000).web.map ≠ [] ∧
      cutterDriven onWeb = false) ∧
    (let s := markTwice 5416 5715
     Undisturbed s ∧ cutterDriven s = true ∧ openGap s = some aGap ∧ gapMark s aGap = .printed ∧ s.cut.markRun = 2 ∧
       5730 ≤ s.web.c + 1 + s.set.settings.markOffset + 15 ∧ 5730 ≤ s.cut.markFirst + 15 ∧ s.cut.markFirst ≤ 5730 + 15) ∧
    (let s := markTwice 5446 5745
     cutterDriven s = true ∧ s.cut.markFirst ≤ 5730 + 15) ∧
    (let s := markTwice 5446 5745
     cutterDriven s = true ∧ openGap s = some aGap ∧ gapMark s aGap = .printed ∧
       5720 + 20 / 2 + 15 + 2 ≤ s.web.c + 1 + s.set.settings.markOffset ∧ 2 ≤ s.cut.missCount) :=
  ⟨⟨undisturbed rfl, by decide +kernel⟩, ⟨undisturbed rfl, by decide +kernel⟩, by decide +kernel, by decide +kernel⟩

/-- The search of a gap that begins; a carried gap that is found, with the leading cut its offset moves. -/
theorem wit_searched_gap :
    (let s := (feeding 0).setCut { (feeding 0).cut with gaps := [{ aGap with window := none }] }
     openGap s = some { aGap with window := none } ∧ openGap (beginSearch s) = some aGap) ∧
    (let s := (markTwice 5416 5715).setCut { (markTwice 5416 5715).cut with
       nextCut := some ⟨.leading, 1, 5740, 5740⟩
       leadingMade := false
       gaps := [{ aGap with gapStart := 7260 }]
       carried := some ⟨aGap, .printed⟩ }
     Undisturbed s ∧ cutterDriven s = true ∧ openGap s = some aGap ∧ gapMark s aGap = .printed ∧ s.cut.markRun = 2 ∧
       ∃ t, exec (.cutterFeedStep true) s = .next t ∧ t.cut.nextCut = some ⟨.leading, 1, 5740, 5725⟩ ∧
         t.cut.gaps = s.cut.gaps ∧ (t.cut.carried.map fun z => z.gap.decision) = some .found) :=
  ⟨by decide +kernel, undisturbed rfl, by decide +kernel, by decide +kernel, by decide +kernel, rfl, _, rfl,
   by decide +kernel⟩

/-- A cut of a kind under way on the print. -/
def cutting (k : CutKind) : State :=
  (feeding 4200).setCut { (feeding 4200).cut with state := .cutting, nextCut := some ⟨k, 1, 4200, 4200⟩ }

theorem wit_CutCompletes : (∀ k, Undisturbed (cutting k) ∧ (cutting k).cut.abandoned = 0 ∧
      (cutting k).cut.state = .cutting ∧ (cutting k).cut.nextCut = some ⟨k, 1, 4200, 4200⟩ ∧
      (cutting k).web.map = aEntry :: []) ∧
    (let s := up.setCut { up.cut with abandoned := 1 }
     Undisturbed s ∧ 0 < s.cut.abandoned) ∧ (Undisturbed up ∧ up.cut.abandoned = 0 ∧ up.cut.state ≠ .cutting) :=
  ⟨fun _ => ⟨undisturbed rfl, rfl, rfl, rfl, rfl⟩, ⟨undisturbed rfl, by decide⟩, undisturbed rfl, rfl, nofun⟩

/-- A trailing cut that leaves a frame on the map, with its gap between them or its start at that frame's start: the leading
cut is next, or it is omitted. -/
theorem wit_next_cut_chosen :
    let two := fun start : Nat => { cutting .trailing with
      web := { (cutting .trailing).web with map := [aEntry, { aEntry with frame := { aPrint with number := 2 }, start := start }] }
      cut := { (cutting .trailing).cut with
        offset := 5
        gaps := [{ aGap with decision := .found, offset := some 2 }, { aGap with frame := 2, gapStart := start + 1520 }] } }
    (∀ start, Undisturbed (two start) ∧ (two start).cut.abandoned = 0 ∧ (two start).cut.state = .cutting ∧
      (two start).cut.nextCut = some ⟨.trailing, 1, 4200, 4200⟩ ∧ (two start).web.map = aEntry :: (two start).web.map.tail) ∧
    (∃ t, exec .cutCompletion (two 5740) = .next t ∧ t.cut.nextCut = some ⟨.leading, 2, 5740, 5742⟩ ∧
      t.cut.state = .feeding ∧ t.cut.carried.isSome = true) ∧
    (∃ t, exec .cutCompletion (two 5720) = .next t ∧ t.cut.nextCut = some ⟨.trailing, 2, 7240, 7245⟩ ∧
      t.cut.leadingMade = true ∧ t.cut.carried = none ∧ t.web.map.map (fun e => e.frame.unregistered) = [true]) :=
  ⟨fun _ => ⟨undisturbed rfl, rfl, rfl, rfl, rfl⟩, ⟨_, rfl, by decide +kernel⟩, _, rfl, by decide +kernel⟩

theorem wit_BladeJamFaults :
    (Undisturbed (cutting .trailing) ∧ (cutting .trailing).cut.state ≠ .fault ∧ (cutting .trailing).web.state = .ready ∧
      frameAtBlade (cutting .trailing) = some 1 ∧
      ((cutting .trailing).web.map.map fun e => e.frame.number).Nodup) ∧
    (let s := up.setCut { up.cut with state := .fault }
     Undisturbed s ∧ s.cut.state = .fault) :=
  ⟨⟨undisturbed rfl, by decide +kernel⟩, undisturbed rfl, rfl⟩

/-! ### Sorter -/

/-- A strip in transit awaiting its reading behind a print, magazine A loaded. -/
def awaiting : State :=
  { threaded with
    srt := { threaded.srt with transit := [⟨aPrint, .exposed, .none, none⟩, ⟨aStrip, .exposed, .awaited, none⟩] }
    sch := threaded.sch.setMark .a (.created 2) }

theorem wit_ReadingJudged :
    (Undisturbed awaiting ∧ awaiting.srt.discards = 0 ∧
      awaiting.srt.transit = [⟨aPrint, .exposed, .none, none⟩] ++ ⟨aStrip, .exposed, .awaited, none⟩ :: [] ∧
      (∀ q ∈ [(⟨aPrint, .exposed, .none, none⟩ : Piece)], q.reading ≠ .awaited)) ∧
    ((awaiting.web.mag .a).state = .ready ∧ ladderIndex awaiting.exu.ladder.thresholds (32 : BitVec 10).toNat = some 0 ∧
      ladderIndex awaiting.exu.ladder.thresholds (1023 : BitVec 10).toNat = some 15 ∧
      ladderIndex awaiting.exu.ladder.thresholds (31 : BitVec 10).toNat = none) ∧
    awaiting.sch.mark .a = .created 2 ∧
    (let s := up.setSrt { up.srt with discards := 1 }
     Undisturbed s ∧ 0 < s.srt.discards) ∧
    (Undisturbed up ∧ up.srt.discards = 0 ∧ ∀ p ∈ up.srt.transit, p.reading ≠ .awaited) :=
  ⟨⟨undisturbed rfl, by decide +kernel⟩, by decide +kernel, by decide +kernel, ⟨undisturbed rfl, by decide⟩,
   undisturbed rfl, by decide +kernel⟩

/-- The print at the head of the transit queue, its order with the bins given, bin 3 with a count. -/
def toDrop (bins : List Nat) (count : Nat) : State :=
  { up with
    ort := ⟨(List.replicate 64 none).set 0 (some { anOrder with bins := bins }), 1⟩
    srt := { up.srt with
      transit := [⟨aPrint, .exposed, .none, none⟩]
      bins := up.srt.bins.set 3 ⟨.assigned, some 7, count, Sensor.unread⟩ } }

theorem wit_DropStartRoutes :
    (let s := { up with srt := { up.srt with transit := [⟨aStrip, .exposed, .taken, none⟩] } }
     Undisturbed s ∧ s.srt.state = .run ∧ s.srt.dropping = false ∧ aStrip.ref = none) ∧
    (Undisturbed (toDrop [3] 49) ∧ aPrint.ref = some ⟨0, 7, 1, 1, 2⟩ ∧ aPrint.live = true ∧
      (toDrop [3] 49).orderAt 0 7 = some { anOrder with bins := [3] } ∧
      (toDrop [3] 49).srt.bins[3]? = some ⟨.assigned, some 7, 49, Sensor.unread⟩ ∧
      49 < (toDrop [3] 49).set.settings.binCapacity) ∧
    ((toDrop [3] 50).srt.bins[3]? = some ⟨.assigned, some 7, 50, Sensor.unread⟩ ∧
      (toDrop [3] 50).set.settings.binCapacity ≤ 50 ∧ freeBinFor (toDrop [3] 50) { anOrder with bins := [3] } = some 0) ∧
    (∀ b, ([] : List Nat).getLast? = some b → ∃ x, (toDrop [] 0).srt.bins[b]? = some x ∧
      (toDrop [] 0).set.settings.binCapacity ≤ x.count) ∧
    ((toDrop [0, 1, 2, 3] 50).orderAt 0 7 = some { anOrder with bins := [0, 1, 2, 3] } ∧
      ([0, 1, 2, 3] : List Nat).getLast? = some 3) ∧
    (Undisturbed up ∧ up.srt.transit = []) ∧ (Undisturbed jammed ∧ jammed.srt.state ≠ .run) :=
  ⟨⟨undisturbed rfl, by decide +kernel⟩, ⟨undisturbed rfl, by decide +kernel⟩, by decide +kernel, nofun,
   by decide +kernel, ⟨undisturbed rfl, rfl⟩, undisturbed rfl, nofun⟩

/-- The print being dropped to a bin, its order in the table, bin 3 one below its capacity. -/
def landing (b : Nat) : State :=
  { toDrop [3] 49 with srt := { (toDrop [3] 49).srt with
    transit := [⟨aPrint, .exposed, .none, some b⟩], dropping := true } }

theorem wit_DropCompletes : (∀ b, Undisturbed (landing b) ∧ (landing b).srt.ended = 0 ∧ (landing b).srt.dropping = true ∧
      (landing b).srt.transit = ⟨aPrint, .exposed, .none, some b⟩ :: []) ∧
    ((landing 3).srt.bins[3]? = some ⟨.assigned, some 7, 49, Sensor.unread⟩ ∧
      (landing 3).orderAt 0 7 = some anOrder ∧ anOrder.line 1 = some aLine) ∧
    (let s := up.setSrt { up.srt with ended := 1 }
     Undisturbed s ∧ 0 < s.srt.ended) ∧ (Undisturbed up ∧ up.srt.ended = 0 ∧ up.srt.dropping = false) :=
  ⟨fun _ => ⟨undisturbed rfl, rfl, rfl, rfl⟩, by decide +kernel, ⟨undisturbed rfl, by decide⟩, undisturbed rfl, rfl, rfl⟩

/-- A sensor that has read a value filtered and the other twice. -/
def turning (from_ to_ : Occupancy) : Sensor := ⟨some from_, some to_, 2⟩

/-- Bin 23 in a state with a count, its sensor turning. -/
def bin23 (x : BinState) (n : Nat) (from_ to_ : Occupancy) : OrderBin := ⟨x, some 7, n, turning from_ to_⟩

theorem wit_BinSensorRecorded :
    (∀ y : OrderBin, Undisturbed (up.setSrt { up.srt with bins := up.srt.bins.set 23 y }) ∧
      (up.srt.bins.set 23 y)[(23 : Fin 26).val]? = some y) ∧
    ((turning .empty .occupied).sample .occupied).2 = true ∧ ((turning .occupied .empty).sample .empty).2 = true ∧
    ((bin23 .free 0 .empty .occupied).state = .free ∧ (bin23 .full 1 .occupied .empty).state = .full ∧
      0 < (bin23 .full 1 .occupied .empty).count ∧ (bin23 .emptying 1 .occupied .empty).state = .emptying) ∧
    findOrder (holding .active).ort.slots 7 = some (0, anOrder) ∧
    (let s := up.setSrt { up.srt with state := .hold, reject := ⟨true, 100, turning .occupied .empty⟩ }
     Undisturbed s ∧ ((s.srt.holding 25).sensor.sample .empty).2 = true ∧ (s.srt.holding 25).sensor.filtered ≠ none ∧
       s.srt.state = .hold ∧ (s.srt.holding 25).full = true ∧ (s.srt.holding (49 - 25)).full = false) :=
  ⟨fun _ => ⟨undisturbed rfl, rfl⟩, by decide, by decide, by decide, by decide +kernel, undisturbed rfl, by decide +kernel⟩

theorem wit_IdleTimerStandby :
    (let s := up.setLnk { up.lnk with idleTimer := some 30 }
     Undisturbed s ∧ s.lnk.idleTimer ≠ none) ∧ (Undisturbed up ∧ up.lnk.idleTimer = none) :=
  ⟨⟨undisturbed rfl, nofun⟩, undisturbed rfl, rfl⟩

/-- The timer starts with the part idle, is restarted by a request carried out and by no other event, nor by a request
answered BAD_FORMAT. -/
theorem wit_idle_timer_runs :
    let s := up.setLnk { up.lnk with idleTimer := some 2 }
    let after := fun (c : Instr) (s : State) (n : Nat) => ∃ t, exec c s = .next t ∧ t.lnk.power = .active ∧
      t.lnk.idleTimer = some n
    (Takes s ∧ s.lnk.waiting = [] ∧ sendingResetReply s = false) ∧ up.set.settings.idleTimer = 30 ∧
    after .bladeJam (up.setLnk { up.lnk with idleTimer := none }) 30 ∧ after .bladeJam s 2 ∧
    after (.headReset 1 []) s 30 ∧ after (.headReset 1 [0]) s 2 :=
  ⟨⟨⟨by decide, by decide, by decide, by decide⟩, rfl, rfl⟩, rfl, ⟨_, rfl, by decide +kernel⟩, ⟨_, rfl, by decide +kernel⟩,
   ⟨_, rfl, by decide +kernel⟩, _, rfl, by decide +kernel⟩

/-! ### Computations and bytes -/

theorem wit_ExposureComputed : exposureSum 0 (-512) (-256) (-8) (-8) 63 63 = -1776 ∧
    exposureSum 4095 511 255 8 8 63 63 = 5869 ∧ 4 ≤ 1024 / 256 := by decide

theorem wit_PricesComputed :
    (let reached := fun (q : Nat) (t : Tier) => t.threshold ≠ 0 ∧ t.threshold ≤ q
     reached 50 tiers.tier4 ∧ (¬ reached 49 tiers.tier4 ∧ reached 25 tiers.tier3) ∧
       (¬ reached 24 tiers.tier3 ∧ reached 10 tiers.tier2) ∧ ¬ reached 9 tiers.tier2) ∧
    (∀ l ∈ anOrder.lines, l.d ≤ l.n) ∧ (anOrder.lines.length ≤ 8 ∧ anOrder.terms.roundingUnit ≤ 100) := by decide

theorem wit_RoutingDecoded : aWindow.claims 999999 7 = true ∧ aWindow.claims 0 7 = false ∧
    (∀ w ∈ up.srt.windows, w.claims 7 1 = false) ∧ freeBinIn up.srt.bins (23, 1) = some 23 := by decide +kernel

theorem wit_RowsMapped : 1519 < 1520 ∧ 0 < aLine.rows.2 ∧ sourceRow aLine 1520 1519 = 1199 ∧
    firstLineOf 1200 1520 0 = 0 ∧ lastLineOf 1200 1520 0 = 1 := by decide +kernel

theorem wit_SubmissionAndFramesReadBack :
    (readSubmission aSubmission.bytes = some aSubmission ∧ aSubmission.lines.length < 256 ∧
      (∀ l ∈ clampedSubmission.lines, l.imageId < 2 ^ 32 ∧ l.copies < 256 ∧ -128 ≤ l.density ∧ l.density ≤ 127)) ∧
    feedAll 1024 Framer.hunting (frameBytes 0x38 1 []) = (Framer.hunting, [.good 0x38 1 []]) ∧
    (0 : BitVec 16) ≠ crc16 (le2 0 ++ [0x38, 1] ++ []) ∧ (1024 < 1025 ∧ 1025 < 65536) ∧
    (∀ b ∈ ([0, 0xA4] : List Byte), b ≠ 0xA5) := by decide +kernel

/-! ### Notices -/

/-- A state with a frame being sent: every notice raised is queued. -/
def loud (s : State) : State := s.setLnk { s.lnk with tx := some ⟨0xB8, 0, [0], false⟩ }

theorem loud_audible {s : State} (h : s.lnk = up.lnk) (k : s.set = up.set) :
    Audible (loud s) ∧ Takes (loud s) ∧ Undisturbed (loud s) := by
  have l : (loud s).lnk = { up.lnk with tx := some ⟨0xB8, 0, [0], false⟩ } := by
    rw [show (loud s).lnk = { s.lnk with tx := some ⟨0xB8, 0, [0], false⟩ } from rfl, h]
  have p : (loud s).set = up.set := k
  refine ⟨⟨by rw [l]; nofun, by rw [l]; decide, fun x => by rw [p]; cases x <;> decide⟩, ?_, undisturbed (by rw [l]; rfl)⟩
  constructor <;> rw [l] <;> decide

/-- The notices in the queue after a command. -/
def raisedBy (c : Instr) (s : State) : List (NoticeKind × List Byte) :=
  match exec c s with
  | .next t => t.lnk.notices.map fun n => (n.kind, n.body)
  | .fault _ => []
  | .refused _ => []

/-- A strip alone in transit, jammed unread. -/
def jammedStrip : State := { jammed with srt := { jammed.srt with transit := [⟨aStrip, .spoiled, .none, some 25⟩] } }

/-- The print's run may start with codes that are limited. -/
def limited : State := { runnable with exu := { runnable.exu with profiles := List.replicate 8 ⟨4095, 0, 0⟩ } }

/-- The run of the print past its lines, its magazine at the low mark. -/
def atLowMark : State := (atStep 1520).setWeb { (atStep 1520).web with magA := { aRoll with remaining := 50000 } }

/-- Magazine A being threaded for a changeover to it. -/
def changing : State := (threading .changeover).setWeb { (threading .changeover).web with ask := some .a }

/-- The states in which notices are shown below. -/
theorem wit_Raises :
    (∀ s, s = up ∨ s = limited ∨ s = atLowMark ∨ s = flushing ∨ s = changing ∨ s = onWeb ∨ s = fetching ∨ s = awaiting ∨
      s = dropping ∨ s = jammedStrip ∨ s = toDrop [0, 1, 2, 3] 50 ∨ s = landing 25 ∨ s = markTwice 5446 5745 ∨
      s = markTwice 5416 5715 ∨ s = cutting .trailing ∨ s = feeding 4000 ∨ s = holding .active ∨ s = exposing ∨
      s = owing .active 0 2 0 none → Audible (loud s) ∧ Takes (loud s) ∧ Undisturbed (loud s)) ∧
    (runReady (loud limited) = true ∧ 1520 ≤ 1520) ∧ magLowNotice (loud atLowMark) .a false 49999 ≠ [] ∧
    (loud changing).web.ask = some .a ∧ jammedStrip.srt.state = .fault ∧ jammedStrip.srt.jammed = true ∧
    up.srt.jammed = false ∧ (up.exu.head = .ready ∧ (loud up).lnk.power ≠ .waking) ∧ frameAtBlade up = none ∧
    (readData [0, 77] = none ∧ (fetching.ifu.tags[8]? = none ∧ fetching.ifu.tags[0]? = some .free)) := by
  refine ⟨?_, by decide +kernel⟩
  rintro s (h | h | h | h | h | h | h | h | h | h | h | h | h | h | h | h | h | h | h) <;> subst h <;> exact loud_audible rfl rfl

theorem test_notices_of_head_and_web :
    raisedBy .warmUpCompletion (loud State.reset) = [(.awake, [])] ∧
    raisedBy .headFaultEvent (loud up) = [(.headFault, [2, 0xFF, 0xFF])] ∧
    raisedBy .exposureRunStart (loud limited) =
      [(.exposureLimited, [1, 0, 7, 0, 0, 0, 1, 0xFF, 0x0F, 0, 0, 0, 0, 8])] ∧
    raisedBy .exposureFeedStep (loud atLowMark) = [(.magLow, [0, 0x4F, 0xC3, 0, 0])] ∧
    raisedBy .threadedEvent (loud changing) = [(.changeoverDone, [0, 2, 0x38, 0x76, 1, 0])] ∧
    raisedBy .paperEndSensor (loud onWeb) = [(.magLow, [0, 0, 0, 0, 0]), (.magEmpty, [0, 1, 0xA0, 0x86, 1, 0])] := by
  decide +kernel

theorem test_notices_of_cutter_and_sorter :
    raisedBy (.cutterFeedStep false) (loud (markTwice 5446 5745)) =
      [(.cutMarkMissed, [1, 0, 0x62, 0x16, 0, 0, 0, 3]), (.cutterFault, [1, 0x47, 0x15, 0, 0, 1, 0, 3])] ∧
    raisedBy .bladeJam (loud (cutting .trailing)) = [(.cutterFault, [0, 0x68, 0x10, 0, 0, 1, 0, 0])] ∧
    raisedBy (.densitometerReading 32 1023 480) (loud awaiting) =
      [(.calResult, [0, 2, 0, 0, 32, 0, 0xFF, 3, 0xE0, 1, 0, 15, 7, 112, 0, 0x80, 0xFF, 0, 0, 0])] ∧
    (raisedBy (.sorterResume 1 []) (loud jammedStrip)).map Prod.fst = [.calResult] ∧
    raisedBy .transportJam (loud dropping) = [(.sorterFault, [1, 0, 0, 3, 1])] ∧
    raisedBy .dropStart (loud (toDrop [0, 1, 2, 3] 50)) = [(.overflowUsed, [7, 0, 0, 0, 1, 1, 0, 0])] ∧
    raisedBy .dropCompletion (loud ((landing 25).setSrt { (landing 25).srt with reject := ⟨false, 99, Sensor.unread⟩ })) =
      [(.rejectFull, [25, 100])] ∧
    raisedBy (.binSensorEvent 23 [.empty]) (loud (up.setSrt { up.srt with
      bins := up.srt.bins.set 23 (bin23 .full 1 .occupied .empty) })) = [(.binRemovedEarly, [23, 7, 0, 0, 0, 1])] := by
  decide +kernel

theorem test_notices_of_orders_and_fetch :
    raisedBy (.imageFrameReceived (frameBytes 0xE0 8 aData)) (loud fetching) =
      [(.strayData, [8, 0, 77, 0, 0, 0, 0, 0])] ∧
    raisedBy (.orderPriority 1 [7, 0, 0, 0, 9]) (loud (holding .active)) =
      [(.paperNeeded, [7, 0, 0, 0, 1, 2, 89, 0, 0])] ∧
    ((accountLoss (aLoss .rowRange) (loud (owing .active 0 2 0 none))).lnk.notices.map fun n => (n.kind, n.body))[1]? =
      some (.lineFailed, [7, 0, 0, 0, 1, 2]) := by decide +kernel

/-- The gap of the print decided, or its entry without a mark; the transit queue full. -/
theorem cut_witness :
    (let s := (feeding 5719).setCut { (feeding 5719).cut with gaps := [{ aGap with decision := .found, offset := some 0 }] }
     Undisturbed s ∧ cutterDriven s = true ∧ s.web.map ≠ [] ∧ openGap s = none ∧
       s.cut.nextCut = some ⟨.trailing, 1, 5720, 5720⟩ ∧ s.srt.transit.length < 4 ∧
       ∃ t, exec (.cutterFeedStep false) s = .next t ∧ t.cut.state = .cutting ∧ t.web.map = s.web.map) ∧
    (let s := (feeding 5719).setCut { (feeding 5719).cut with gaps := [{ aGap with decision := .missed, offset := some 0 }] }
     openGap s = none ∧ ∃ t, exec (.cutterFeedStep false) s = .next t ∧
       t.web.map.map (fun e => e.frame.unregistered) = [true]) ∧
    (let s := { (feeding 5719) with
       cut := { (feeding 5719).cut with gaps := [] }
       srt := { up.srt with transit := List.replicate 4 ⟨aStrip, .exposed, .taken, none⟩ } }
     openGap s = none ∧ 4 ≤ s.srt.transit.length ∧
       ∃ t, exec (.cutterFeedStep false) s = .next t ∧ t.cut.state = .hold) ∧
    (let s := feeding 5000
     cutterDriven s = true ∧ openGap s = some aGap ∧ gapMark s aGap = .printed ∧
       s.web.c + 1 + s.set.settings.markOffset + 15 < 5730) ∧
    (let s := (feeding 5446).setWeb { (feeding 5446).web with map := [{ aEntry with mark := .none }] }
     Undisturbed s ∧ cutterDriven s = true ∧ openGap s = some aGap ∧ gapMark s aGap = .none ∧
       5720 + 20 / 2 + 15 + 2 ≤ s.web.c + 1 + s.set.settings.markOffset) ∧
    (let s := { (feeding 5720) with
       cut := { (feeding 5720).cut with state := .hold }
       srt := { dropping.srt with transit := List.replicate 4 ⟨aStrip, .exposed, .taken, some 25⟩ } }
     Undisturbed s ∧ s.cut.state = .hold ∧ s.cut.nextCut = some ⟨.trailing, 1, 5720, 5720⟩ ∧ s.web.state = .ready ∧
       s.srt.ended = 0 ∧ s.srt.dropping = true ∧
       ∃ t, exec .dropCompletion s = .next t ∧ t.cut.state = .cutting) :=
  ⟨⟨undisturbed rfl, by decide +kernel, by decide +kernel, by decide +kernel, rfl, by decide, _, rfl, by decide +kernel,
     by decide +kernel⟩,
   ⟨by decide +kernel, _, rfl, by decide +kernel⟩, ⟨by decide +kernel, by decide, _, rfl, by decide +kernel⟩,
   by decide +kernel, ⟨undisturbed rfl, by decide +kernel⟩,
   undisturbed rfl, rfl, rfl, rfl, rfl, rfl, _, rfl, by decide +kernel⟩

/-! ### Invariants -/

theorem wit_StepKeepsLinkSteady : LinkSteady up ∧ step up = .next up := by
  refine ⟨⟨by decide, by decide, by decide, undisturbed rfl, fun _ => ⟨rfl, rfl⟩, nofun⟩, ?_⟩
  rfl

theorem wit_StepKeepsSized : Sized threaded ∧ step threaded = .next threaded :=
  ⟨⟨by decide, by decide, by decide, by decide, by decide, by decide⟩, rfl⟩

/-- The order with its print queued on a threaded web, whose loop is empty. -/
def booked : State :=
  { threaded with ort := (holding .active).ort, sch := { threaded.sch with queue := [aPrint] } }

theorem booked_steps : step booked = .next booked := rfl

theorem booked_sized : Sized booked := ⟨by decide, by decide, by decide, by decide, by decide, by decide⟩

theorem booked_sorter : SorterSound booked where
  counts := by decide +kernel
  assigned := by decide +kernel
  full := by decide +kernel
  overflow := by decide +kernel
  reject := by decide +kernel
  running := by decide +kernel
  lists := fun slot o h => by rw [(holding_alone .active h).2]; decide
  dropping := nofun
  jammed := nofun
  transit := by decide
  cutting := nofun

theorem booked_accounts : Accounts booked where
  orders := fun i j o o' h h' _ => by rw [(holding_alone .active h).1, (holding_alone .active h').1]
  frames := by decide
  queued := by decide
  placed := fun r h => ⟨anOrder, aLine, by
    have : inFlightRefs booked = [⟨0, 7, 1, 1, 2⟩] := rfl
    obtain rfl := List.mem_singleton.mp (this ▸ h)
    decide +kernel⟩
  counts := fun slot i o l h k => by
    obtain ⟨rfl, rfl⟩ := holding_alone .active h
    match i with
    | 0 => cases k
    | 1 => cases k; decide +kernel
    | n + 2 => simp [Order.line, anOrder] at k
  states := fun slot o h => by
    obtain ⟨-, rfl⟩ := holding_alone .active h
    exact ⟨by decide, rfl⟩

theorem wit_StepKeepsAccounts : Sized booked ∧ SorterSound booked ∧ Accounts booked ∧ step booked = .next booked :=
  ⟨booked_sized, booked_sorter, booked_accounts, booked_steps⟩

theorem wit_StepKeepsQueueOrdered : Sized booked ∧ SorterSound booked ∧ Accounts booked ∧ QueueOrdered booked ∧
    step booked = .next booked := by
  refine ⟨booked_sized, booked_sorter, booked_accounts, ?_, booked_steps⟩
  exact ⟨List.pairwise_singleton _ _, by decide +kernel, nofun, nofun, nofun, nofun, fun m => ⟨nofun, nofun⟩, nofun⟩

/-- The premises under which a re-placed queue is ordered: see `OrderCancelPriorityCollect`. -/
theorem replaced_witness : Takes booked ∧ findOrder booked.ort.slots 7 = some (0, anOrder) ∧
    OrderState.active.schedulable = true ∧ anOrder.priority ≠ 15 ∧ QueueOrdered booked ∧ Accounts booked :=
  ⟨takes rfl, by decide +kernel, by decide, by decide, wit_StepKeepsQueueOrdered.2.2.2.1, booked_accounts⟩

theorem wit_StepKeepsFetchesSteady : Sized booked ∧ FetchesSteady booked ∧ step booked = .next booked := by
  refine ⟨booked_sized, ⟨?_, ?_, nofun, by decide, by decide⟩, booked_steps⟩
  · intro i f first last row t h
    exact absurd (List.eq_of_mem_replicate (List.mem_of_getElem? (h : (List.replicate 64 LineSlot.empty)[i]? = _))) nofun
  · intro t i info timer h
    exact absurd (List.eq_of_mem_replicate (List.mem_of_getElem? (h : (List.replicate 8 FetchTag.free)[t]? = _))) nofun

theorem wit_StepKeepsValuesLegal : ValuesLegal up ∧ step up = .next up := by
  have d : SettingsImage.legal SettingsImage.default := by
    refine ⟨⟨by decide, ?_⟩, by decide, by decide, by unfold Ladder.legal; decide, by decide, by decide⟩
    intro id v h
    by_cases c : id < 0x52
    · revert v
      revert id
      decide +kernel
    · unfold Settings.get at h
      split at h <;> first | omega | skip
      simp_all
      omega
  exact ⟨⟨d, d, fun _ h => by cases h⟩, rfl⟩

theorem wit_StepKeepsSorterSound : ValuesLegal up ∧ SorterSound up ∧ step up = .next up := by
  refine ⟨wit_StepKeepsValuesLegal.1, ⟨by decide +kernel, by decide +kernel, by decide +kernel, by decide +kernel,
    by decide +kernel, by decide +kernel, ?_, nofun, nofun, by decide, nofun⟩, rfl⟩
  intro slot o h
  exact absurd (List.eq_of_mem_replicate (List.mem_of_getElem? (h : (List.replicate 64 none)[slot]? = _))) nofun

theorem wit_StepKeepsLoopBounded : ValuesLegal booked ∧ LoopBounded booked ∧ step booked = .next booked :=
  ⟨⟨wit_StepKeepsValuesLegal.1.live, wit_StepKeepsValuesLegal.1.stored, nofun⟩,
   ⟨by decide +kernel, nofun, by decide⟩, booked_steps⟩

/-- The second clause's premises: the web map empty. -/
theorem wit_web_and_cutter_sound : Accounts booked ∧ WebMapSound booked ∧ CutterSound booked := by
  refine ⟨booked_accounts, ⟨by decide, by decide, nofun, nofun, by decide, nofun, fun _ => rfl, by decide, by decide,
    by decide, nofun, by decide⟩, ?_⟩
  exact ⟨rfl, by decide, by decide, by decide, by decide, nofun, nofun, nofun, nofun, nofun, nofun, nofun⟩

/-- With a print on the web map and its trailing cut ahead the two hold as well. -/
theorem feeding_sound : WebMapSound (feeding 4000) ∧ CutterSound (feeding 4000) :=
  ⟨⟨by decide, by decide, by decide, nofun, by decide, fun _ => ⟨rfl, .inl rfl⟩, fun _ => rfl, by decide, by decide,
    by decide, nofun, by decide⟩,
   rfl, by decide, by decide, by decide, by decide, fun _ => ⟨rfl, nofun⟩,
   fun _ h => ⟨aEntry, [], rfl, by cases h; decide +kernel⟩, fun _ h => by cases h; decide +kernel, nofun,
   fun _ => ⟨rfl, _, rfl, by decide⟩, nofun, nofun⟩

/-! ### Strips, asks, run tests and supplies -/

/-- Magazine A threaded, its strip to be created, the print committed ahead of it or not. -/
def stripWaiting (committed : Bool) : State :=
  threaded.setSch { threaded.sch.setMark .a .awaiting with queue := [aPrint], committed := committed }

theorem wit_strip_due : (∀ b, stripDue (stripWaiting b) = some .a ∧ (heldNumbers (stripWaiting b)).length ≤ 52) ∧
    stripDue threaded = none ∧
    stripDue ((stripWaiting false).setSch { (stripWaiting false).sch with changeover := .asked .b }) = none := by
  refine ⟨fun b => ?_, by decide +kernel⟩
  cases b <;> decide +kernel

theorem test_strip_stands_behind_committed_head : ∀ b,
    (selectionPass (stripWaiting b)).sch.queue.map (fun f => (f.number, f.isStrip)) =
      (if b then [(1, false), (2, true)] else [(2, true), (1, false)]) := by
  intro b
  cases b <;> decide +kernel

/-- A changeover to magazine B, a roll of a given length, in a web state with an empty map. -/
def asking (x : WebState) (length : Nat) : State :=
  { threaded with
    sch := { threaded.sch with changeover := .pending .b }
    web := { threaded.web with state := x, magB := { aRoll with surface := .matte, remaining := length } } }

theorem wit_ask : (∀ x n, (asking x n).sch.changeover = .pending .b ∧ (asking x n).web.map = [] ∧
      (asking x n).sch.queue = [] ∧ (asking x n).web.threading = none ∧ ((asking x n).web.mag .b).state ≠ .empty ∧
      (asking x n).web.active = some .a ∧ Mag.a ≠ .b ∧ ((asking x n).web.mag .a).state.loaded = true) ∧
    (asking .ready 4200).set.settings.pathFixed = 4200 ∧
    (let s := asking .clearing 4199
     4199 < (s.web.mag .a).remaining ∧
       let t := s.setWeb { s.web with magA := { aRoll with remaining := 4199 } }
       ¬ t.set.settings.pathFixed ≤ (t.web.mag .a).remaining) := by
  refine ⟨fun x n => ⟨rfl, rfl, rfl, rfl, nofun, rfl, nofun, rfl⟩, rfl, by decide +kernel, by decide +kernel⟩

/-- What the ask leaves of the web and of the target. -/
def asked (x : WebState) (n : Nat) : WebState × Option Mag × Option Mag × MagState :=
  let t := askTest (asking x n)
  (t.web.state, t.web.threading, t.web.ask, (t.web.mag .b).state)

/-- The ask in each web state with an empty map, for the target that just fits and the one a step too short. -/
theorem test_ask_by_web_state :
    asked .ready 4200 = (.changeover, some .b, some .b, .ready) ∧ asked .ready 4199 = (.ready, none, none, .empty) ∧
      asked .clearing 4200 = (.clearing, some .b, some .b, .ready) ∧
      asked .clearing 4199 = (.clearing, some .a, none, .empty) ∧
      asked .fault 4199 = (.fault, none, some .b, .ready) ∧ asked .threading 4199 = (.threading, none, some .b, .ready) := by
  refine ⟨?_, ?_, ?_, ?_, ?_, ?_⟩ <;> decide +kernel

/-- The committed print on a READY web whose active magazine has a given remaining length. -/
def short (n : Nat) : State := runnable.setWeb { runnable.web with magA := { aRoll with remaining := n } }

theorem wit_run_test : (∀ n, (short n).web.state = .ready ∧ (short n).web.run = none ∧ (short n).web.active = some .a ∧
      (short n).sch.queue.head? = some aPrint ∧ aPrint.mag = .a ∧ ((short n).web.mag .a).state ≠ .empty ∧
      committedHead (short n) = some aPrint ∧ (short n).lnk.waiting = []) ∧
    aPrint.lf + aPrint.gap + (short 0).set.settings.pathFixed = 5740 ∧
    (let s := exposing.setWeb { exposing.web with run := some ⟨1539, 1520, 20, 20000⟩ }
     ∃ t, exec .exposureFeedStep s = .next t ∧ s.web.run ≠ none ∧ t.web.run = none) :=
  ⟨fun _ => ⟨rfl, rfl, rfl, rfl, rfl, nofun, rfl, rfl⟩, rfl, _, rfl, nofun, by decide +kernel⟩

theorem test_run_test_at_its_bound : ((runTest (short 5739)).web.mag .a).state = .empty ∧
    (runTest (short 5739)).sch.queue = [] ∧ (runTest (short 5739)).ifu.primed = false ∧
    ((runTest (short 5740)).web.mag .a).state = .ready := by decide +kernel

/-- The committed print primed, a fetch of it outstanding and a slot awaiting the answer. -/
def headSupplied : State :=
  { runnable with
    ort := (holding .active).ort
    ifu := { runnable.ifu with
      tags := runnable.ifu.tags.set 7 (.outstanding ⟨1, 77, 0, 1⟩ (some 63) (some 40))
      slots := runnable.ifu.slots.set 63 (.awaited 1 0 0 0 (some 7)) } }

theorem wit_supplies_given_up : (Takes headSupplied ∧ committedHead headSupplied = some aPrint ∧
      aPrint.ofOrder 7 = true ∧ aPrint.mag = .a ∧ headSupplied.web.active = some .a ∧
      (headSupplied.web.mag .a).state ≠ .empty ∧ (∀ e, headSupplied.web.newest = some e → e.frame.number ≠ 1)) ∧
    (Takes supplied ∧ supplied.ifu.current = some ⟨1, aPrint.job, .a, 1520, 0⟩ ∧ supplied.web.run ≠ none ∧
      supplied.web.newest.map (fun e => (e.frame.number, e.frame.liveOf 7)) = some (1, true)) ∧
    (let s := supplied.setOrder 1 (some { anOrder with number := 8, seq := 2 })
     Takes s ∧ (findOrder s.ort.slots 8).map Prod.fst = some 1 ∧ (∀ e ∈ s.web.map, e.frame.liveOf 8 = false) ∧
       s.ifu.current ≠ none) ∧
    (let c : Current := ⟨1, aPrint.job, .a, 1520, 1519⟩
     let s := supplied.setIfu { supplied.ifu with current := some c }
     s.ifu.current = some c ∧ c.lf ≤ 1519 + 1 ∧ (lineDue 1519 s).ifu.current = none) :=
  ⟨⟨takes rfl, rfl, rfl, rfl, rfl, nofun, nofun⟩, ⟨takes rfl, rfl, nofun, by decide +kernel⟩,
   ⟨takes rfl, by decide +kernel, by decide +kernel, nofun⟩, rfl, by decide, by decide +kernel⟩

/-- A cancel and a hold give up the head's supply, a cancel and a path clearing the current frame's; a path clearing keeps
the head's. -/
theorem test_supplies_given_up :
    let supply := fun t : State =>
      (t.ifu.tags[7]?, t.ifu.slots[63]?, t.ifu.primed, t.ifu.current.isSome, t.sch.queue.length)
    let gone := (some (.outstanding ⟨1, 77, 0, 1⟩ none (some 40)), some .empty, false, false, 0)
    (∃ t, exec (.orderCancel 1 [7, 0, 0, 0]) headSupplied = .next t ∧ supply t = gone) ∧
    (∃ t, exec (.orderPriority 1 [7, 0, 0, 0, 0]) headSupplied = .next t ∧ supply t = gone) ∧
    (∃ t, exec (.orderCancel 1 [7, 0, 0, 0]) supplied = .next t ∧ t.ifu.current = none ∧ t.ifu.slots[63]? = some .empty) ∧
    (∃ t, exec (.pathClear 1 []) headSupplied = .next t ∧ t.ifu.primed = true ∧ committedHead t = some aPrint) ∧
    (∃ t, exec (.pathClear 1 []) supplied = .next t ∧ t.ifu.current = none ∧ t.ifu.slots[63]? = some .empty) :=
  ⟨⟨_, rfl, by decide +kernel⟩, ⟨_, rfl, by decide +kernel⟩, ⟨_, rfl, by decide +kernel⟩, ⟨_, rfl, by decide +kernel⟩,
   _, rfl, by decide +kernel⟩

/-- A path holding a strip the magazine's mark names, a print in transit and a flush. -/
def pathFull : State :=
  { flushing with
    sch := flushing.sch.setMark .a (.created 2)
    web := { flushing.web with flushTimer := some 20, map := [aEntry, { aEntry with frame := aStrip }] }
    srt := { flushing.srt with transit := [⟨{ aPrint with number := 3 }, .exposed, .none, none⟩] } }

theorem wit_path_clear_marks : Takes pathFull ∧ pathStrips pathFull = [aStrip] ∧ aStrip.mag = .a ∧
    pathFull.sch.mark .a = .created aStrip.number ∧ (pathLosses pathFull).map (fun x => x.frame.number) = [1, 3] ∧
    (∀ f ∈ pathStrips pathFull, f.mag = .b → pathFull.sch.mark .b ≠ .created f.number) ∧ Audible (loud pathFull) :=
  ⟨takes rfl, by decide +kernel, rfl, rfl, by decide +kernel, by decide +kernel, (loud_audible (s := pathFull) rfl rfl).1⟩

theorem test_path_clear_stops_flush : ∃ t, exec (.pathClear 1 []) pathFull = .next t ∧ t.web.flush = none ∧
    t.web.flushTimer = none ∧ t.sch.queue.map Frame.isStrip = [true] := ⟨_, rfl, by decide +kernel⟩

/-- A paper end with the committed head and a second frame queued for the magazine it ends. -/
theorem wit_paper_end_unusable :
    (let s := headSupplied.setSch { headSupplied.sch.setMark .a (.created 9) with
       queue := [aPrint, { aStrip with mag := .b }], changeover := .pending .a }
     Undisturbed s ∧ s.web.active = some .a ∧ s.web.threading = none ∧ (s.web.mag .a).state ≠ .empty ∧
       ∃ t, exec .paperEndSensor s = .next t ∧ t.sch.queue.map Frame.mag = [.b] ∧ t.sch.mark .a = .none ∧
         t.sch.changeover = .clear ∧ t.ifu.primed = false) ∧
    (let s := (threading .changeover).setWeb { (threading .changeover).web with ask := some .a }
     let u := s.setSch { s.sch with changeover := .asked .a }
     u.web.ask = some .a ∧ ∃ t, exec .paperEndSensor u = .next t ∧ t.web.ask = none ∧ t.sch.changeover = .clear) :=
  ⟨⟨undisturbed rfl, rfl, rfl, nofun, _, rfl, by decide +kernel⟩, rfl, _, rfl, by decide +kernel⟩

/-- The last trailing cut in CHANGEOVER, the target of the ask with a given length. -/
def lastCut (n : Nat) : State :=
  (cutting .trailing).setWeb { (cutting .trailing).web with
    state := .changeover, ask := some .b, magB := { aRoll with surface := .matte, remaining := n } }

theorem wit_last_cut : ∀ n, Undisturbed (lastCut n) ∧ (lastCut n).web.map.length = 1 ∧ (lastCut n).web.state = .changeover ∧
    (lastCut n).web.ask = some .b ∧ (lastCut n).web.threading = none ∧ (lastCut n).web.active ≠ some .b ∧
    ((lastCut n).web.mag .b).state ≠ .empty := fun _ => ⟨undisturbed rfl, rfl, rfl, rfl, rfl, nofun, nofun⟩

theorem test_last_cut_threads_target :
    (∃ t, exec .cutCompletion (lastCut 4200) = .next t ∧ t.web.threading = some .b ∧ t.web.fIn = 4200 ∧ t.web.c = 0) ∧
    (∃ t, exec .cutCompletion (lastCut 4199) = .next t ∧ t.web.threading ≠ some .b ∧ t.web.ask = none ∧
      (t.web.mag .b).state = .empty) := ⟨⟨_, rfl, by decide +kernel⟩, _, rfl, by decide +kernel⟩

/-- A blade jam stops a flush and its timer, and leaves CLEARING with an active magazine, UNTHREADED and FAULT. -/
theorem test_blade_jam_web :
    let after := fun s : State => match exec .bladeJam s with
      | .next t => some (t.web.state, t.web.flush, t.web.flushTimer)
      | .fault _ => none
      | .refused _ => none
    let within := fun x => onWeb.setWeb { onWeb.web with state := x, flush := some 9955, flushTimer := some 20 }
    after (within .ready) = some (.fault, none, none) ∧ after (within .changeover) = some (.fault, none, none) ∧
      (after (within .clearing)).map Prod.fst = some .clearing ∧ after up = some (.unthreaded, none, none) ∧
      (after (within .fault)).map Prod.fst = some .fault := by decide +kernel

/-- Capacity settings written with counts at and below the new value. -/
theorem test_capacity_aligns_bins :
    let s := up.setSrt { up.srt with
      bins := (up.srt.bins.set 3 ⟨.full, some 7, 50, Sensor.unread⟩).set 4 ⟨.assigned, some 8, 40, Sensor.unread⟩
      overflow := ⟨true, 50, Sensor.unread⟩
      state := .hold }
    let bins := fun t : State => ((t.srt.bins[3]?).map OrderBin.state, (t.srt.bins[4]?).map OrderBin.state)
    up.set.settings.get 0x0F = some 50 ∧ capacityBusy 0x0F 51 s = false ∧
    (∃ t, exec (.settingWrite 1 [0x0F, 51, 0, 0, 0]) s = .next t ∧ bins t = (some .assigned, some .assigned)) ∧
    (∃ t, exec (.settingWrite 1 [0x10, 99, 0, 0, 0]) s = .next t ∧ t.srt.overflow.full = false ∧ t.srt.state = .run) := by
  refine ⟨by decide +kernel, by decide +kernel, ⟨_, rfl, by decide +kernel⟩, _, rfl, by decide +kernel⟩

/-- A bin of each state with its sensor turning to a reading that only is recorded, and a reading that changes nothing. -/
theorem wit_sensor_only_recorded :
    (∀ x n, ((bin23 x n .occupied .empty).sensor.sample .empty).2 = true ∧
      ((bin23 x n .empty .occupied).sensor.sample .occupied).2 = true) ∧ (bin23 .assigned 0 .occupied .empty).count = 0 ∧
    (Sensor.unread.sample .empty).2 = false ∧ Sensor.unread.filtered = none := by
  exact ⟨fun _ _ => ⟨rfl, rfl⟩, rfl, rfl, rfl⟩

/-- Frames with a wrong check or a length above the maximum, on each link. -/
theorem wit_bad_frames : (∃ c : BitVec 16, c ≠ crc16 (le2 0 ++ [0x38, 1] ++ [])) ∧
    (Undisturbed up ∧ up.lnk.stationRx = Framer.hunting ∧ up.lnk.imageRx = Framer.hunting) ∧
    (1024 < 1025 ∧ 12288 < 12289 ∧ 12289 < 65536) :=
  ⟨⟨0, by decide +kernel⟩, ⟨undisturbed rfl, rfl, rfl⟩, by decide⟩

theorem test_bad_frames_counted :
    (∃ t, exec (.stationFrameReceived [0xA5, 0, 0, 0x38, 1, 0, 0]) up = .next t ∧ t.lnk.stationCrc = 1 ∧
      t.lnk.stationFraming = 0) ∧
    (∃ t, exec (.imageFrameReceived [0xA5, 1, 0x30, 0xE0, 1]) up = .next t ∧ t.lnk.imageFraming = 1) :=
  ⟨⟨_, rfl, by decide +kernel⟩, _, rfl, by decide +kernel⟩

/-- The premises under which a step keeps the supply: a print being exposed and a slot filled for it. -/
theorem wit_supply_sound : SupplySound supplied ∧ SupplySound headSupplied := by
  refine ⟨⟨?_, ?_, nofun⟩, ⟨?_, nofun, fun _ => rfl⟩⟩
  · intro x h n k
    rcases List.mem_or_eq_of_mem_set (show x ∈ (List.replicate 64 LineSlot.empty).set 63 _ from h) with h | rfl
    · rw [List.eq_of_mem_replicate h] at k
      cases k
    · cases k
      exact .inl ⟨_, rfl, rfl⟩
  · intro c h
    cases h
    exact ⟨_, _, rfl, rfl, rfl, rfl, rfl, by decide⟩
  · intro x h n k
    rcases List.mem_or_eq_of_mem_set (show x ∈ (List.replicate 64 LineSlot.empty).set 63 _ from h) with h | rfl
    · rw [List.eq_of_mem_replicate h] at k
      cases k
    · cases k
      exact .inr ⟨_, rfl, rfl⟩

/-! ### Mark runs, losses by cause, exposure inputs and places that become free -/

/-- The gap of the print searched with its mark at 5730 and its decision point at 5747, a mark run begun. -/
def searching (c run : Nat) : State :=
  (feeding c).setCut { (feeding c).cut with markRun := run, markFirst := 5715 }

theorem wit_mark_run :
    (∀ c run, c = 5413 ∨ c = 5414 ∨ c = 5445 ∨ c = 5446 → run = 0 ∨ run = 1 →
      let s := searching c run
      Undisturbed s ∧ cutterDriven s = true ∧ openGap s = some aGap ∧ gapMark s aGap = .printed ∧
        aGap.window = some 15 ∧ aGap.markCoord = some 5730 ∧ s.cut.markRun < 2 ∧ s.web.map ≠ []) ∧
    (let x := fun c => (searching c 0).web.c + 1 + (searching c 0).set.settings.markOffset
     x 5413 + 15 < 5730 ∧ (5730 ≤ x 5414 + 15 ∧ x 5414 < 5747) ∧ x 5445 < 5747 ∧ 5747 ≤ x 5446) := by
  refine ⟨?_, by decide +kernel⟩
  rintro c run (rfl | rfl | rfl | rfl) (rfl | rfl) <;> exact ⟨undisturbed rfl, by decide +kernel⟩

/-- What a sample leaves of the mark run, its first coordinate and the miss count. -/
def sampledAt (c run : Nat) (seen : Bool) : Option (Nat × Nat × Nat) :=
  match exec (.cutterFeedStep seen) (searching c run) with
  | .next t => some (t.cut.markRun, t.cut.markFirst, t.cut.missCount)
  | .fault _ => none
  | .refused _ => none

/-- Before the window, at its start, at the last sample before the decision point and at it. -/
theorem test_mark_run : sampledAt 5413 0 true = some (0, 5715, 0) ∧ sampledAt 5414 0 true = some (1, 5715, 0) ∧
    sampledAt 5420 0 true = some (1, 5721, 0) ∧ sampledAt 5445 1 true = some (2, 5715, 0) ∧
    (sampledAt 5445 1 false).map Prod.fst = some 0 ∧ sampledAt 5446 1 true = some (0, 5715, 1) := by
  decide +kernel

/-- A state with the order of the print. -/
def withOrder (s : State) : State := { s with ort := (owing .active 0 2 0 none).ort }

/-- Reports of the print's loss by each cause that meets a live print at the head, on the web and at the blade. -/
theorem wit_loss_taken :
    (let s := withOrder exposing
     Undisturbed s ∧ s.exu.head = .exposing ∧ s.web.run ≠ none ∧ (s.web.map.map fun x => x.frame.number).Nodup ∧
       (s.web.newest.map fun e => (e.webState, e.frame.live, e.frame.ref)) =
         some (.exposing, true, some ⟨0, 7, 1, 1, 2⟩) ∧ s.web.state = .ready ∧ s.web.active = some .a) ∧
    (let s := withOrder (cutting .trailing)
     Undisturbed s ∧ s.cut.state ≠ .fault ∧ frameAtBlade s = some aEntry.frame.number ∧
       findEntry aEntry.frame.number s = some aEntry ∧ aEntry.frame.live = true ∧
       aEntry.frame.ref = some ⟨0, 7, 1, 1, 2⟩) ∧
    (∀ cause, (lossNotice (aLoss cause) (owing .active 0 2 0 none)).length = 1) := by
  refine ⟨⟨undisturbed rfl, by decide +kernel⟩, ⟨undisturbed rfl, by decide +kernel⟩, fun _ => rfl⟩

/-- The cause that each FRAME_LOST carries: head fault, paper end and cut fault. -/
theorem test_loss_causes :
    let causes := fun (c : Instr) (s : State) => (raisedBy c (loud (withOrder s))).filterMap fun x =>
      if x.1 = .frameLost then x.2[8]? else none
    causes .headFaultEvent exposing = [1] ∧ causes .paperEndSensor exposing = [2] ∧
      causes .bladeJam (cutting .trailing) = [3] := by decide +kernel

/-- A size entry with an offset, a line with corrections, a profile and offsets of their own. -/
def computing : State :=
  let o := { anOrder with lines := [{ aLine with density := 8, cyan := 1, magenta := -2, yellow := 3 }] }
  { runnable with
    ort := ⟨(List.replicate 64 none).set 0 (some o), 1⟩
    exu := { priced.exu with
      head := .ready
      sizes := priced.exu.sizes.set 2 aSize
      profiles := priced.exu.profiles.set 0 ⟨100, 200, 300⟩ }
    web := { runnable.web with magA := { aRoll with offsets := ⟨10, 20, 30⟩ } } }

theorem wit_exposure_input : aPrint.job = .print ⟨0, 7, 1, 1, 2⟩ ∧ aStrip.job = .strip ∧
    computing.exu.profiles[(computing.web.mag .a).profile]? = some ⟨100, 200, 300⟩ ∧
    computing.exu.sizes[2]? = some aSize ∧ (computing.orderAt 0 7).isSome = true := by decide +kernel

theorem test_exposure_input :
    exposureInput computing aPrint = ⟨⟨100, 200, 300⟩, ⟨10, 20, 30⟩, -256, 8, ⟨1, -2, 3⟩, 25, 15, 20000⟩ ∧
    exposureInput computing aStrip = ⟨⟨100, 200, 300⟩, ⟨10, 20, 30⟩, 0, 0, ⟨0, 0, 0⟩, 25, 15, 20000⟩ := by
  decide +kernel

/-- What a step drives. -/
def drivenBy (c : Instr) (s : State) : List PortOut :=
  match exec c s with
  | .next t => t.ports
  | .fault _ => []
  | .refused _ => []

theorem test_ports_driven :
    PortOut.exposureRun 1540 20000 ∈ drivenBy .exposureRunStart runnable ∧
    drivenBy .dropStart { jammed with srt := { jammed.srt with state := .run, jammed := false } } = [.drop 25] ∧
    (let s := (cutting .trailing).setWeb { (cutting .trailing).web with map := [{ aEntry with frame := aStrip }] }
     PortOut.readDensitometer ∈ drivenBy .cutCompletion s) ∧
    PortOut.readDensitometer ∉ drivenBy .cutCompletion (cutting .trailing) := by decide +kernel

/-- A strip unread at the head of a full transit queue, its magazine's mark naming it, and a trailing cut held. -/
def heldByStrip (x : SorterState) : State :=
  { feeding 5720 with
    sch := (feeding 5720).sch.setMark .a (.created 2)
    cut := { (feeding 5720).cut with state := .hold }
    srt := { up.srt with
      transit := ⟨aStrip, .spoiled, .none, some 25⟩ :: List.replicate 3 ⟨aPrint, .exposed, .none, none⟩
      dropping := x != .fault
      jammed := x == .fault
      state := x } }

theorem wit_place_freed : ∀ x, Takes (heldByStrip x) ∧ Undisturbed (heldByStrip x) ∧ (heldByStrip x).cut.state = .hold ∧
    (heldByStrip x).cut.nextCut ≠ none ∧ (heldByStrip x).web.state = .ready ∧ (heldByStrip x).srt.state = x ∧
    (heldByStrip x).srt.ended = 0 ∧ (heldByStrip x).srt.transit.head?.map (fun p => p.frame.number) = some 2 ∧
    (heldByStrip x).sch.mark .a = .created 2 := by
  intro x
  refine ⟨takes rfl, undisturbed rfl, ?_⟩
  cases x <;> decide +kernel

theorem test_place_freed :
    (∃ t, exec (.sorterResume 1 []) (heldByStrip .fault) = .next t ∧ t.cut.state = .cutting ∧ .bladeCut ∈ t.ports ∧
      t.sch.mark .a = .none) ∧
    (∃ t, exec .dropCompletion (heldByStrip .run) = .next t ∧ t.cut.state = .cutting ∧ .bladeCut ∈ t.ports ∧
      t.sch.mark .a = .none) := ⟨⟨_, rfl, by decide +kernel⟩, _, rfl, by decide +kernel⟩

/-! ### Frames given up by a load, notices behind a loss, and what a drop leaves of the sorter -/

/-- Magazine A loaded but not active, the print its committed head with a fetch outstanding, a changeover toward it
pending. -/
def spare : State :=
  { headSupplied with
    sch := { headSupplied.sch.setMark .a (.created 9) with changeover := .pending .a }
    web := { headSupplied.web with magB := { aRoll with surface := .matte }, active := some .b } }

/-- A MAG_LOAD of magazine A with gloss paper of a given width. -/
def reload (width : Byte) : Instr := .magLoad 1 [0, width, 0, 0, 0x68, 0x10, 0, 0, 0]

theorem wit_frames_given_up : Takes spare ∧ spare.web.active ≠ some .a ∧ (spare.web.mag .a).state ≠ .absent ∧
    loadRefused .a spare = false ∧ unloadRefused .a spare = false ∧ committedHead spare = some aPrint ∧
    aPrint.mag = .a ∧ spare.sch.changeover = .pending .a :=
  ⟨takes rfl, nofun, nofun, by decide +kernel, by decide +kernel, rfl, rfl, rfl⟩

/-- The head goes with its supply; a roll of the line's own paper gets frames with numbers given since. -/
theorem test_load_gives_up_frames :
    let left := fun t : State => (t.sch.queue.map Frame.number, t.ifu.tags[7]?, t.ifu.primed, t.sch.changeover)
    let marked := some (FetchTag.outstanding ⟨1, 77, 0, 1⟩ none (some 40))
    (∃ t, exec (reload 127) spare = .next t ∧ left t = ([], marked, false, .clear) ∧ t.sch.counter = 0) ∧
    (∃ t, exec (reload 89) spare = .next t ∧ left t = ([1, 2], marked, false, .asked .a) ∧ t.sch.counter = 2) ∧
    (∃ t, exec (.magUnload 1 [0]) spare = .next t ∧ left t = ([], marked, false, .clear)) :=
  ⟨⟨_, rfl, by decide +kernel, by decide +kernel⟩, ⟨_, rfl, by decide +kernel, by decide +kernel⟩, _, rfl,
    by decide +kernel⟩

/-- The piece being dropped, or the frame at the blade, dead or a strip: no loss. -/
def lossless (f : Frame) : State :=
  { cutting .trailing with
    web := { (cutting .trailing).web with map := [{ aEntry with frame := f }] }
    srt := { dropping.srt with transit := [⟨f, .exposed, .none, some 25⟩] } }

theorem wit_no_loss : ∀ f, f = { aPrint with live := false } ∨ f = aStrip → Undisturbed (lossless f) ∧
    (lossless f).cut.state ≠ .fault ∧ frameAtBlade (lossless { f with number := 1 }) = some 1 ∧
    (f.live = false ∨ f.ref = none) ∧ (lossless f).srt.state ≠ .fault ∧ (lossless f).srt.dropping = true := by
  rintro f (rfl | rfl) <;> exact ⟨undisturbed rfl, by decide +kernel⟩

/-- SORTER_FAULT and CUTTER_FAULT come behind FRAME_LOST and LINE_FAILED of the loss, before the notices of the pass, and alone
without a loss. -/
theorem test_faults_behind_losses :
    let kinds := fun (c : Instr) (s : State) => (raisedBy c (loud s)).map Prod.fst
    let failing := fun s : State => { s with ort := (owing .active 0 2 3 none).ort }
    kinds .transportJam (withOrder dropping) = [.frameLost, .sorterFault, .paperNeeded] ∧
    kinds .transportJam (failing dropping) = [.frameLost, .lineFailed, .sorterFault] ∧
    kinds .bladeJam (withOrder (cutting .trailing)) = [.frameLost, .cutterFault, .paperNeeded] ∧
    kinds .bladeJam (failing (cutting .trailing)) = [.frameLost, .lineFailed, .cutterFault] ∧
    (∀ f ∈ [{ aPrint with live := false }, { aStrip with number := 1 }],
      kinds .transportJam (lossless f) = [.sorterFault] ∧ kinds .bladeJam (lossless f) = [.cutterFault]) := by
  decide +kernel

/-- The sample at the decision point of the third gap missed in a row, a given frame at the blade. -/
def thirdMiss (f : Frame) : State :=
  let s := searching 5446 0
  { withOrder s with cut := { s.cut with missCount := 2 }, web := { s.web with map := [{ aEntry with frame := f }] } }

theorem wit_third_miss : ∀ f, f = aPrint ∨ f = { aPrint with live := false } → Undisturbed (thirdMiss f) ∧
    cutterDriven (thirdMiss f) = true ∧ openGap (thirdMiss f) = some aGap ∧ gapMark (thirdMiss f) aGap = .printed ∧
    (thirdMiss f).cut.missCount = 2 ∧ frameAtBlade (thirdMiss f) = some f.number := by
  rintro f (rfl | rfl) <;> exact ⟨undisturbed rfl, by decide +kernel⟩

/-- CUTTER_FAULT of a third miss comes behind CUT_MARK_MISSED and, with a live print at the blade, the notice of its loss. -/
theorem test_third_miss :
    let kinds := fun f => (raisedBy (.cutterFeedStep false) (loud (thirdMiss f))).map Prod.fst
    kinds aPrint = [.cutMarkMissed, .frameLost, .cutterFault, .paperNeeded] ∧
    kinds { aPrint with live := false } = [.cutMarkMissed, .cutterFault] := by decide +kernel

/-- The strip at the head of transit with its reading awaited, dropped to a given bin or jammed. -/
def unreadStrip (b : Nat) : State :=
  { up with srt := { up.srt with
      transit := [⟨aStrip, .exposed, .awaited, some b⟩]
      dropping := true
      overflow := ⟨false, 99, Sensor.unread⟩ } }

/-- A bin FREE since the drop to it began, and a holding bin that the piece fills: the sorter holds, and the reading is to be
discarded. -/
theorem wit_drop_leaves : ∀ b, b = 3 ∨ b = 24 → Undisturbed (unreadStrip b) ∧ (unreadStrip b).srt.ended = 0 ∧
    (unreadStrip b).srt.bins[3]? = some ⟨.free, none, 0, Sensor.unread⟩ ∧ (unreadStrip b).srt.state = .run ∧
    (unreadStrip b).srt.overflow.full = false ∧ (unreadStrip b).set.settings.overflowCapacity = 100 := by
  rintro b (rfl | rfl) <;> exact ⟨undisturbed rfl, by decide +kernel⟩

theorem test_drop_leaves :
    let left := fun t : State => (t.srt.state, t.srt.discards, (t.srt.bins[3]?).map fun x => (x.state, x.count))
    (∃ t, exec .dropCompletion (unreadStrip 3) = .next t ∧ left t = (.run, 1, some (.free, 1))) ∧
    (∃ t, exec .dropCompletion (unreadStrip 24) = .next t ∧ left t = (.hold, 1, some (.free, 0))) ∧
    (∃ t, exec (.sorterResume 1 []) { unreadStrip 3 with srt := { (unreadStrip 3).srt with
        dropping := false, jammed := true, state := .fault } } = .next t ∧
      left t = (.run, 1, some (.free, 0)) ∧ t.srt.transit = []) :=
  ⟨⟨_, rfl, by decide +kernel⟩, ⟨_, rfl, by decide +kernel⟩, _, rfl, by decide +kernel, by decide +kernel⟩

/-- The exposed print's supply with a fetch of a later row outstanding. -/
def fetchingOn : State :=
  supplied.setIfu { supplied.ifu with tags := supplied.ifu.tags.set 7 (.outstanding ⟨1, 77, 1, 1⟩ (some 62) (some 40)) }

/-- A head fault, a paper end, a line without its row and a NO_IMAGE answer leave the tag with the discard mark. -/
theorem test_current_supply_abandoned :
    let left := fun t : State => (t.ifu.current, t.ifu.tags[7]?, t.ifu.slots[63]?)
    let gone := (none, some (FetchTag.outstanding ⟨1, 77, 1, 1⟩ none (some 40)), some LineSlot.empty)
    (∃ t, exec .headFaultEvent fetchingOn = .next t ∧ left t = gone) ∧
    (∃ t, exec .paperEndSensor fetchingOn = .next t ∧ left t = gone) ∧ left (lineDue 2 fetchingOn) = gone ∧
    left (takeData 6 (aRefusal 2) (fetchingOn.setIfu { fetchingOn.ifu with
      slots := fetchingOn.ifu.slots.set 61 (.awaited 1 3 3 0 (some 6))
      tags := fetchingOn.ifu.tags.set 6 (.outstanding ⟨1, 77, 0, 1⟩ (some 61) (some 40)) })) = gone :=
  ⟨⟨_, rfl, by decide +kernel⟩, ⟨_, rfl, by decide +kernel⟩, by decide +kernel, by decide +kernel⟩

/-- The last step of a run leaves its entry EXPOSED, or SPOILED where it was so. -/
theorem test_run_completes : ∀ w, w = FrameWeb.exposing ∨ w = .spoiled →
    ∃ t, exec .exposureFeedStep
        ((atStep 1539).setWeb { (atStep 1539).web with map := [{ aEntry with webState := w }] }) = .next t ∧
      t.web.map.map WebEntry.webState = [if w = .exposing then .exposed else .spoiled] := by
  rintro w (rfl | rfl) <;> exact ⟨_, rfl, by decide +kernel⟩

end Sys2Proof.Tests
end

section
/-!
PROOFS. HEAD_RESET (R57): what a step has driven on its ports stays driven to its end, and a request whose owner leaves LNK
alone and calls for no test changes no more than its owner does.
-/
namespace Sys2Proof.Machine

/-! ### What a step drives -/

theorem drive_ports_prefix (p : PortOut) (s : State) : s.ports <+: (drive p s).ports := List.prefix_append _ _

/-- The transmitter's next frame is driven behind what is driven before it. -/
theorem takeNext_ports_prefix (s : State) : s.ports <+: (takeNext s).ports := by
  unfold takeNext
  split
  · exact List.prefix_rfl
  · split
    · exact drive_ports_prefix _ _
    · split
      · exact drive_ports_prefix _ _
      · exact List.prefix_rfl

theorem driveCutter_ports_prefix (b : Option Int) (s : State) : s.ports <+: (driveCutter b s).ports := by
  unfold driveCutter
  split
  · exact List.prefix_rfl
  · split <;> exact drive_ports_prefix _ _

theorem driveFlush_ports_prefix (b : Option Nat) (s : State) : s.ports <+: (driveFlush b s).ports := by
  unfold driveFlush
  split
  · exact List.prefix_rfl
  · split
    · exact drive_ports_prefix _ _
    · split
      · exact List.prefix_rfl
      · exact drive_ports_prefix _ _

/-- The feeds are commanded behind what is driven before. -/
theorem driveFeeds_ports_prefix (b s : State) : s.ports <+: (driveFeeds b s).ports :=
  (driveCutter_ports_prefix _ s).trans (driveFlush_ports_prefix _ _)

/-! ### A request that concerns its owner alone -/

/-- A request LNK takes, whose owner leaves LNK as it is and calls for no test: it is answered, nothing but LNK changes beyond
the owner's effect, and what the owner drives is driven (R173, R174). -/
theorem request_answered_alone {kind tag : Byte} {body : List Byte} {s u : State} {reply : List Byte} (h : Takes s)
    (hk : kind.msb = false) (hb : body.length ≤ maxStationBody) (hl : lengthFits kind.toNat body = true)
    (ha : ownerAnswer kind.toNat body (asAsked s) = (u, reply)) (hu : u.lnk = (asAsked s).lnk) (hd : u.due = Due.none) :
    ∃ t, request kind tag body s = .next t ∧ Answered s t (replyTo kind tag reply) ∧ u.ports <+: t.ports ∧
      OnlyLink u t := by
  have waiting : u.lnk.waiting = [] := by rw [hu]; exact h.waiting
  have replies : u.lnk.replies = s.lnk.replies := by rw [hu]; rfl
  have sending : u.lnk.tx = s.lnk.tx := by rw [hu]; rfl
  have asked : LinkSame s u := by constructor <;> rw [hu] <;> rfl
  have taken := request_taken (tag := tag) h hk hb hl (by rw [ha]; exact waiting)
  obtain ⟨t, e, replied, only, same⟩ := request_onlyLink (tag := tag) h hk hb hl (by rw [ha]; exact waiting)
    (by rw [ha]; exact replies) (by rw [ha]; exact sending) (by rw [ha]; exact hd)
  rw [ha] at taken replied only same
  refine ⟨t, e, ⟨asked.trans same, replied⟩, ?_, only⟩
  obtain rfl : _ = t := Host.Outcome.next.inj (taken.symm.trans e)
  rw [quiesce_of_nothing_due (pushReply _ _ _ (restartIdle u)) hd]
  exact (takeNext_ports_prefix (idleService (pushReply _ _ _ (restartIdle u)))).trans (driveFeeds_ports_prefix s _)

/-! ### HEAD_RESET -/

/-- Only an EXPOSING head does not begin its warm-up (R57). -/
theorem headReset_of_not_exposing {s : State} (body : List Byte) (h : s.exu.head ≠ .exposing) :
    headReset body s = ok (warmUp s) := by
  unfold headReset
  split
  · contradiction
  all_goals rfl

theorem headReset_of_exposing {s : State} (body : List Byte) (h : s.exu.head = .exposing) :
    headReset body s = refuse stBusy s := by
  unfold headReset
  rw [h]

/-- The warm-up is commanded to the head port (R54). -/
theorem headWarmUp_mem_warmUp (s : State) : .headWarmUp ∈ (warmUp s).ports :=
  List.mem_append_right _ (List.mem_singleton_self _)

/-- Settles O20: the head's state alone decides between warming up and BUSY, and neither concerns another block. -/
theorem headResetWarms : Obligations.HeadResetWarms := by
  unfold Obligations.HeadResetWarms
  refine fun tag s h => ⟨fun head => ?_, fun head => ?_⟩
  · have free : (asAsked s).exu.head ≠ .exposing := by
      change s.exu.head ≠ .exposing
      rcases head with head | head | head <;> rw [head] <;> decide
    obtain ⟨t, e, answered, driven, only⟩ := request_answered_alone (kind := 0x3B) (tag := tag) (body := []) h rfl
      (Nat.zero_le _) rfl (headReset_of_not_exposing [] free) rfl rfl
    have warmed : OnlyLink (s.setExu { s.exu with head := .warming }) (warmUp (asAsked s)) := rfl
    exact ⟨t, e, answered, driven.subset (headWarmUp_mem_warmUp _), warmed.trans only⟩
  · obtain ⟨t, e, answered, _, only⟩ := request_answered_alone (kind := 0x3B) (tag := tag) (body := []) h rfl
      (Nat.zero_le _) rfl (headReset_of_exposing (s := asAsked s) [] head) rfl rfl
    exact ⟨t, e, answered, (onlyLink_asAsked s).trans only⟩

end Sys2Proof.Machine
end

section
/-!
PROOFS. The exposure computation (R49 to R52): each number EXU finds, from the clamp of one sum to the result of a frame.
-/
namespace Sys2Proof.RGB

/-! ### Triples channel by channel -/

@[simp] theorem toList_map {α β : Type} (f : α → β) (x : RGB α) : (x.map f).toList = x.toList.map f := rfl

theorem all_iff_forall_mem {α : Type} (p : α → Bool) (x : RGB α) : x.all p = true ↔ ∀ a ∈ x.toList, p a = true := by
  simp [RGB.all, toList, and_assoc]

/-- Not every channel is free of a flag exactly when one carries it. -/
theorem not_all_not_iff (x : RGB Bool) : (!x.all (!·)) = true ↔ true ∈ x.toList := by
  rw [Bool.not_eq_true', ← Bool.not_eq_true, all_iff_forall_mem]
  simp

end Sys2Proof.RGB

namespace Sys2Proof.Machine

/-! ### One channel (R50, R51) -/

theorem clampCode_cast (e : Int) : (clampCode e : Int) = max 0 (min 4095 e) := by
  unfold clampCode
  split
  · omega
  · split <;> omega

theorem codeClamped_eq_decide (e : Int) : codeClamped e = decide (e < 0 ∨ 4095 < e) := by
  unfold codeClamped
  rw [Bool.decide_or]

/-- A correction of −8..+8 times a step of 0..63 lies within −504..+504 (R49). -/
theorem scaled_correction_bounds {d : Int} {step : Nat} (lower : -8 ≤ d) (upper : d ≤ 8) (small : step ≤ 63) :
    -504 ≤ d * step ∧ d * step ≤ 504 := by
  have least : -8 * (step : Int) ≤ d * step := Int.mul_le_mul_of_nonneg_right lower (Int.natCast_nonneg step)
  have greatest : d * (step : Int) ≤ 8 * step := Int.mul_le_mul_of_nonneg_right upper (Int.natCast_nonneg step)
  omega

/-- The bounds of an exposure sum are its parts' bounds added up (R50). -/
theorem exposureSum_bounds {base dStep cStep : Nat} {calib size density colour : Int} (hb : base ≤ 4095)
    (hk : -512 ≤ calib ∧ calib ≤ 511) (hs : -256 ≤ size ∧ size ≤ 255) (hd : -8 ≤ density ∧ density ≤ 8)
    (hc : -8 ≤ colour ∧ colour ≤ 8) (hdStep : dStep ≤ 63) (hcStep : cStep ≤ 63) :
    -1776 ≤ exposureSum base calib size density colour dStep cStep ∧
      exposureSum base calib size density colour dStep cStep ≤ 5869 := by
  have density_part := scaled_correction_bounds hd.1 hd.2 hdStep
  have colour_part := scaled_correction_bounds hc.1 hc.2 hcStep
  unfold exposureSum
  omega

/-- A code up to 4095 doubles at most 15 times, so its dwell is that of the two ends at most (R51). -/
theorem dwellOf_bounds {e : Nat} (h : e ≤ 4095) : 16 ≤ dwellOf e ∧ dwellOf e ≤ 1046528 := by
  have doublings : e / 256 ≤ 15 := by omega
  have least : 1 ≤ 2 ^ (e / 256) := Nat.one_le_two_pow
  have greatest : 2 ^ (e / 256) ≤ 2 ^ 15 := Nat.pow_le_pow_right (by decide) doublings
  have lower : 256 * 1 ≤ (256 + e % 256) * 2 ^ (e / 256) := Nat.mul_le_mul (by omega) least
  have upper : (256 + e % 256) * 2 ^ (e / 256) ≤ 511 * 2 ^ 15 := Nat.mul_le_mul (by omega) greatest
  unfold dwellOf
  omega

/-- From four doublings on the division by 16 leaves no rest (R51). -/
theorem dwellOf_mul_sixteen {e : Nat} (h : 4 ≤ e / 256) : dwellOf e * 16 = (256 + e % 256) * 2 ^ (e / 256) :=
  Nat.div_mul_cancel (Nat.dvd_mul_left_of_dvd (Nat.pow_dvd_pow 2 h) _)

/-- Below 256 nothing is doubled (R51). -/
theorem dwellOf_of_lt {e : Nat} (h : e < 256) : dwellOf e = (256 + e) / 16 := by
  unfold dwellOf
  rw [Nat.mod_eq_of_lt h, Nat.div_eq_of_lt h, Nat.pow_zero, Nat.mul_one]

/-! ### A frame's result (R50 to R52) -/

/-- The exposure sums of the three channels (R50). -/
def exposureSums (i : ExposureInput) : RGB Int :=
  ⟨exposureSum i.base.r i.calib.r i.size i.density i.colour.r i.dStep i.cStep,
    exposureSum i.base.g i.calib.g i.size i.density i.colour.g i.dStep i.cStep,
    exposureSum i.base.b i.calib.b i.size i.density i.colour.b i.dStep i.cStep⟩

/-- The dwells before their limit (R51). -/
def rawDwells (i : ExposureInput) : List Nat := (computeExposure i).exposure.codes.toList.map dwellOf

theorem computeExposure_codes (i : ExposureInput) :
    (computeExposure i).exposure.codes.toList.map (fun e : Nat => (e : Int)) =
      (exposureSums i).toList.map fun e => max 0 (min 4095 e) := by
  have codes : (computeExposure i).exposure.codes = (exposureSums i).map clampCode := rfl
  rw [codes, RGB.toList_map, List.map_map]
  exact List.map_congr_left fun e _ => clampCode_cast e

theorem computeExposure_codeLimited (i : ExposureInput) :
    (computeExposure i).codeLimited.toList = (exposureSums i).toList.map fun e => decide (e < 0 ∨ 4095 < e) := by
  have limited : (computeExposure i).codeLimited = (exposureSums i).map codeClamped := rfl
  rw [limited, RGB.toList_map]
  exact List.map_congr_left fun e _ => codeClamped_eq_decide e

theorem computeExposure_dwells (i : ExposureInput) :
    (computeExposure i).exposure.dwells.toList = (rawDwells i).map fun d => min d (2 * i.period) := rfl

theorem computeExposure_dwellLimited (i : ExposureInput) :
    (computeExposure i).dwellLimited.toList = (rawDwells i).map fun d => decide (2 * i.period < d) := rfl

/-- A frame is limited where a code or a dwell of it is (R50, R51). -/
theorem computeExposure_limited_iff (i : ExposureInput) : (computeExposure i).exposure.limited = true ↔
    true ∈ (computeExposure i).codeLimited.toList ++ (computeExposure i).dwellLimited.toList := by
  rw [List.mem_append, ← RGB.not_all_not_iff, ← RGB.not_all_not_iff, ← Bool.or_eq_true]
  rfl

/-- A run is NORMAL where one line period is enough for every dwell (R52). -/
theorem computeExposure_speed_iff (i : ExposureInput) :
    (computeExposure i).exposure.speed = .normal ↔ ∀ d ∈ rawDwells i, d ≤ i.period := by
  have speed : (computeExposure i).exposure.speed =
      if !((computeExposure i).exposure.codes.map dwellOf).all fun d => decide (d ≤ i.period) then .slow else .normal := rfl
  rw [speed]
  simp [RGB.all_iff_forall_mem, rawDwells]

/-- A SLOW run has twice the line period (R52). -/
theorem computeExposure_period (i : ExposureInput) : (computeExposure i).period =
    if (computeExposure i).exposure.speed = .normal then i.period else 2 * i.period := by
  unfold computeExposure
  dsimp only
  split <;> rfl

/-! ### A frame's inputs (R49) -/

theorem Frame.ref_of_print {f : Frame} {r : PrintRef} (h : f.job = .print r) : f.ref = some r := by
  unfold Frame.ref
  rw [h]

theorem Frame.ref_of_strip {f : Frame} (h : f.job = .strip) : f.ref = none := by
  unfold Frame.ref
  rw [h]

theorem exposureInput_base {s : State} {f : Frame} {p : RGB Nat}
    (h : s.exu.profiles[(s.web.mag f.mag).profile]? = some p) : (exposureInput s f).base = p := by
  simp [exposureInput, h]

theorem exposureInput_size {s : State} {f : Frame} {r : PrintRef} {e : SizeEntry} (hf : f.job = .print r)
    (h : s.exu.sizes[r.size]? = some e) : (exposureInput s f).size = e.offset := by
  simp [exposureInput, Frame.ref_of_print hf, h]

/-- Density and colours come from the line record that a print names. -/
theorem exposureInput_line {s : State} {f : Frame} {r : PrintRef} {o : Order} {l : Line} (hf : f.job = .print r)
    (ho : s.orderAt r.slot r.number = some o) (hl : o.line r.line = some l) :
    (exposureInput s f).density = l.density ∧ (exposureInput s f).colour = ⟨l.cyan, l.magenta, l.yellow⟩ := by
  have line : lineOf s r = some l := by
    unfold lineOf
    rw [ho]
    exact hl
  simp [exposureInput, Frame.ref_of_print hf, line]

/-- A strip is exposed with no offset and no correction but those of its paper (R49). -/
theorem exposureInput_strip {s : State} {f : Frame} (hf : f.job = .strip) : (exposureInput s f).size = 0 ∧
    (exposureInput s f).density = 0 ∧ (exposureInput s f).colour = ⟨0, 0, 0⟩ := by
  simp [exposureInput, Frame.ref_of_strip hf]

/-! ### The obligation -/

/-- Settles O47: the result of the inputs, the inputs of a frame, and the ranges of sum and dwell. -/
theorem exposureComputed : Obligations.ExposureComputed := by
  unfold Obligations.ExposureComputed
  refine ⟨fun i => ⟨computeExposure_codes i, computeExposure_codeLimited i, computeExposure_dwells i,
      computeExposure_dwellLimited i, computeExposure_limited_iff i, computeExposure_speed_iff i, computeExposure_period i⟩,
    fun s f => ⟨fun p h => ?base, ⟨rfl, rfl, rfl⟩, fun r e => exposureInput_size, fun r o l hf ho hl => ?line,
      fun hf => ?strip, rfl, rfl, rfl⟩,
    ?sum, fun _ => rfl, fun e h => ⟨by omega, dwellOf_bounds h⟩, fun _ => dwellOf_mul_sixteen, fun _ => dwellOf_of_lt,
    ?least, ?greatest⟩
  case base => simp [exposureInput_base h]
  case line => simp [exposureInput_line hf ho hl]
  case strip => simp [exposureInput_strip hf]
  case sum =>
    intro base calib size density colour dStep cStep hb hk hk' hs hs' hd hd' hc hc' hdStep hcStep
    exact exposureSum_bounds hb ⟨hk, hk'⟩ ⟨hs, hs'⟩ ⟨hd, hd'⟩ ⟨hc, hc'⟩ hdStep hcStep
  case least => decide
  case greatest => decide

end Sys2Proof.Machine
end

section
/-!
PROOFS. The prices (R144, R151, R153): which tier answers a quantity, the stages of a total one by one, their monotony and
their bounds.
-/
namespace Sys2Proof.Machine

/-! ### The unit price (R144) -/

theorem Tier.applies_iff (t : Tier) (q : Nat) : t.applies q = true ↔ t.threshold ≠ 0 ∧ t.threshold ≤ q := by
  simp [Tier.applies]

theorem PriceEntry.unitPrice_of_tier4 {e : PriceEntry} {q : Nat} (h4 : e.tier4.applies q) :
    e.unitPrice q = e.tier4.price := if_pos h4

theorem PriceEntry.unitPrice_of_tier3 {e : PriceEntry} {q : Nat} (h4 : ¬ e.tier4.applies q) (h3 : e.tier3.applies q) :
    e.unitPrice q = e.tier3.price := (if_neg h4).trans (if_pos h3)

theorem PriceEntry.unitPrice_of_tier2 {e : PriceEntry} {q : Nat} (h4 : ¬ e.tier4.applies q) (h3 : ¬ e.tier3.applies q)
    (h2 : e.tier2.applies q) : e.unitPrice q = e.tier2.price := (if_neg h4).trans ((if_neg h3).trans (if_pos h2))

/-- Tier 1 always qualifies. -/
theorem PriceEntry.unitPrice_of_no_tier {e : PriceEntry} {q : Nat} (h4 : ¬ e.tier4.applies q)
    (h3 : ¬ e.tier3.applies q) (h2 : ¬ e.tier2.applies q) : e.unitPrice q = e.price1 :=
  (if_neg h4).trans ((if_neg h3).trans (if_neg h2))

/-- The tiers in the order in which R144 asks for them. -/
theorem PriceEntry.unitPrice_cases (e : PriceEntry) (q : Nat) :
    (e.tier4.applies q → e.unitPrice q = e.tier4.price) ∧
    (¬ e.tier4.applies q → e.tier3.applies q → e.unitPrice q = e.tier3.price) ∧
    (¬ e.tier4.applies q → ¬ e.tier3.applies q → e.tier2.applies q → e.unitPrice q = e.tier2.price) ∧
    (¬ e.tier4.applies q → ¬ e.tier3.applies q → ¬ e.tier2.applies q → e.unitPrice q = e.price1) :=
  ⟨unitPrice_of_tier4, unitPrice_of_tier3, unitPrice_of_tier2, unitPrice_of_no_tier⟩

/-! ### The stages of a total (R151) -/

/-- Stage 1: the copies counted at their unit prices. -/
def linesTotal (lines : List Line) (count : Line → Nat) : Nat := (lines.map fun l => count l * l.price).sum

theorem linesTotal_cons (l : Line) (lines : List Line) (count : Line → Nat) :
    linesTotal (l :: lines) count = count l * l.price + linesTotal lines count := List.sum_cons

/-- Stage 2: the total less a discount in percent. -/
def discounted (s discount : Nat) : Nat := s * (100 - discount) / 100

/-- Stage 3 of an express order: a surcharge in percent on top. -/
def surcharged (a surcharge : Nat) : Nat := a + a * surcharge / 100

/-- Stage 4: the nearest multiple of the rounding unit, a half rounded up. -/
def roundedTo (r b : Nat) : Nat := (b + r / 2) / r * r

theorem roundedTotal_eq (o : Order) (count : Line → Nat) : roundedTotal o count = roundedTo o.terms.roundingUnit
    (if o.express then surcharged (discounted (linesTotal o.lines count) o.discount) o.terms.surcharge
      else discounted (linesTotal o.lines count) o.discount) := rfl

/-- Stage 5 keeps the rounded total up to the cap. -/
theorem priceTotal_eq_ite (o : Order) (count : Line → Nat) :
    priceTotal o count = if priceCap < roundedTotal o count then priceCap else roundedTotal o count := by
  unfold priceTotal
  split <;> omega

theorem priceIsCapped_iff (o : Order) (count : Line → Nat) :
    priceIsCapped o count = true ↔ priceCap < roundedTotal o count := decide_eq_true_iff

/-! ### No stage falls when what it starts from rises -/

theorem linesTotal_mono {lines : List Line} {count count' : Line → Nat} (h : ∀ l ∈ lines, count l ≤ count' l) :
    linesTotal lines count ≤ linesTotal lines count' := by
  induction lines with
  | nil => exact Nat.le_refl _
  | cons l lines ih =>
    obtain ⟨first, rest⟩ := List.forall_mem_cons.mp h
    rw [linesTotal_cons, linesTotal_cons]
    exact Nat.add_le_add (Nat.mul_le_mul_right l.price first) (ih rest)

theorem discounted_mono {s s' : Nat} (discount : Nat) (h : s ≤ s') : discounted s discount ≤ discounted s' discount :=
  Nat.div_le_div_right (Nat.mul_le_mul_right _ h)

theorem surcharged_mono {a a' : Nat} (surcharge : Nat) (h : a ≤ a') :
    surcharged a surcharge ≤ surcharged a' surcharge :=
  Nat.add_le_add h (Nat.div_le_div_right (Nat.mul_le_mul_right _ h))

theorem roundedTo_mono {b b' : Nat} (r : Nat) (h : b ≤ b') : roundedTo r b ≤ roundedTo r b' :=
  Nat.mul_le_mul_right r (Nat.div_le_div_right (Nat.add_le_add_right h _))

theorem roundedTotal_mono {o : Order} {count count' : Line → Nat} (h : ∀ l ∈ o.lines, count l ≤ count' l) :
    roundedTotal o count ≤ roundedTotal o count' := by
  have discounted_le := discounted_mono o.discount (linesTotal_mono h)
  rw [roundedTotal_eq, roundedTotal_eq]
  apply roundedTo_mono
  split
  · exact surcharged_mono _ discounted_le
  · exact discounted_le

theorem priceTotal_mono {o : Order} {count count' : Line → Nat} (h : ∀ l ∈ o.lines, count l ≤ count' l) :
    priceTotal o count ≤ priceTotal o count' := by
  have rounded_le := roundedTotal_mono h
  unfold priceTotal
  omega

/-! ### The greatest value of each stage -/

/-- Each line adds at most `copies × price`. -/
theorem linesTotal_le {lines : List Line} {count : Line → Nat} {copies price : Nat}
    (h : ∀ l ∈ lines, count l ≤ copies ∧ l.price ≤ price) :
    linesTotal lines count ≤ lines.length * (copies * price) := by
  induction lines with
  | nil => exact Nat.zero_le _
  | cons l lines ih =>
    obtain ⟨⟨few, cheap⟩, rest⟩ := List.forall_mem_cons.mp h
    rw [linesTotal_cons, List.length_cons, Nat.succ_mul, Nat.add_comm]
    exact Nat.add_le_add (ih rest) (Nat.mul_le_mul few cheap)

theorem discounted_le (s discount : Nat) : discounted s discount ≤ s :=
  Nat.div_le_of_le_mul (Nat.mul_comm 100 s ▸ Nat.mul_le_mul_left s (Nat.sub_le 100 discount))

/-- A surcharge of at most 100 percent at most doubles. -/
theorem surcharged_le {a surcharge : Nat} (h : surcharge ≤ 100) : surcharged a surcharge ≤ 2 * a := by
  have charge : a * surcharge ≤ a * 100 := Nat.mul_le_mul_left a h
  unfold surcharged
  omega

/-- Rounding adds at most half a unit. -/
theorem roundedTo_le (r b : Nat) : roundedTo r b ≤ b + r / 2 := Nat.div_mul_le_self _ r

/-! ### The obligation -/

/-- Settles O48: the tier that answers, the stages with their monotony and bounds, and d at most n for the settlement. -/
theorem pricesComputed : Obligations.PricesComputed := by
  unfold Obligations.PricesComputed
  refine ⟨fun e q => ?tiers, fun o count => ⟨priceTotal_eq_ite o count, priceIsCapped_iff o count⟩,
    fun _ _ _ => priceTotal_mono, ?bounds, fun _ h => ⟨rfl, priceTotal_mono h⟩⟩
  case tiers => simpa only [Tier.applies_iff] using e.unitPrice_cases q
  case bounds =>
    intro o count few small surcharge_le unit_le s a b r
    have s_le : s ≤ 51903720 := calc
      s ≤ o.lines.length * (99 * 65535) := linesTotal_le small
      _ ≤ 8 * (99 * 65535) := Nat.mul_le_mul_right _ few
    have a_le : a ≤ s := discounted_le s o.discount
    have b_le : b ≤ 2 * a := surcharged_le surcharge_le
    have rounded_le : (b + r / 2) / r * r ≤ b + r / 2 := roundedTo_le r b
    have half_unit_le : r / 2 ≤ 50 := Nat.div_le_div_right unit_le
    have discount_product_le : s * (100 - o.discount) ≤ 51903720 * 100 := Nat.mul_le_mul s_le (Nat.sub_le 100 o.discount)
    have surcharge_product_le : a * o.terms.surcharge ≤ 51903720 * 100 :=
      Nat.mul_le_mul (Nat.le_trans a_le s_le) surcharge_le
    exact ⟨s_le, discount_product_le, surcharge_product_le, by omega, by omega⟩

end Sys2Proof.Machine
end

section
/-!
PROOFS. Notices and the transmitter (R177, R178): what becomes of a notice given to LNK, which waiting notice is most
urgent, and what the transmitter takes when it finishes a frame.
-/
namespace Sys2Proof.Machine

/-! ### A notice given to LNK (R177) -/

/-- The identifiers from 0x40 hold the notice priorities, in the order of the kinds (R184). -/
theorem Settings.get_noticePriority (x : Settings) (k : NoticeKind) :
    x.get (0x40 + k.index) = some (x.noticePriorities.getD k.index 0) := by
  cases k <;> rfl

theorem NoticeKind.index_lt (k : NoticeKind) : k.index < 18 := by
  cases k <;> decide

theorem NoticeKind.code_toNat (k : NoticeKind) : k.code.toNat = 0xC0 + k.index := by
  have small := k.index_lt
  exact Nat.mod_eq_of_lt (by omega)

theorem sendNotice_of_silent {k : NoticeKind} {s : State} (body : List Byte)
    (silent : s.set.settings.noticePriorities.getD k.index 0 = 0) : sendNotice k body s = s := if_pos silent

theorem sendNotice_of_room {k : NoticeKind} {s : State} (body : List Byte)
    (sent : s.set.settings.noticePriorities.getD k.index 0 ≠ 0) (room : s.lnk.notices.length < 32) :
    sendNotice k body s = s.setLnk { s.lnk with
      notices := s.lnk.notices ++ [⟨k, s.set.settings.noticePriorities.getD k.index 0, s.lnk.occurrence, body⟩]
      occurrence := s.lnk.occurrence + 1 } := (if_neg sent).trans (if_pos room)

theorem sendNotice_of_full {k : NoticeKind} {s : State} (body : List Byte)
    (sent : s.set.settings.noticePriorities.getD k.index 0 ≠ 0) (full : 32 ≤ s.lnk.notices.length) :
    sendNotice k body s = s.setLnk { s.lnk with overrun := true } := (if_neg sent).trans (if_neg (Nat.not_lt.mpr full))

/-- Settles O30: the priority read is the setting of the notice's kind; it and the room in the queue decide between the
three outcomes. -/
theorem noticeQueued : Obligations.NoticeQueued := by
  unfold Obligations.NoticeQueued
  refine fun k body s => ⟨fun p read => ?_, ?_, k.code_toNat, k.index_lt⟩
  · obtain rfl : s.set.settings.noticePriorities.getD k.index 0 = p :=
      Option.some.inj ((Settings.get_noticePriority _ k).symm.trans read)
    exact ⟨sendNotice_of_silent body, sendNotice_of_room body, sendNotice_of_full body⟩
  · rw [Settings.get_noticePriority]
    rfl

/-! ### The most urgent notice (R178) -/

theorem nextNotice_mem {ns : List Notice} {m : Notice} (h : nextNotice ns = some m) : m ∈ ns := by
  induction ns with
  | nil => cases h
  | cons n ns ih =>
    unfold nextNotice at h
    split at h
    · exact List.mem_cons.mpr (.inl (Option.some.inj h).symm)
    next _ later =>
      split at h
      · exact List.mem_cons_of_mem n (ih (later.trans h))
      · exact List.mem_cons.mpr (.inl (Option.some.inj h).symm)

/-- A notice is next when no later one has a higher priority. -/
theorem nextNotice_cons_self {n : Notice} {ns : List Notice} (h : ∀ m ∈ ns, m.priority ≤ n.priority) :
    nextNotice (n :: ns) = some n := by
  unfold nextNotice
  split
  · rfl
  next m later => exact if_neg (Nat.not_lt.mpr (h m (nextNotice_mem later)))

/-- A notice of lower priority gives way to the next of those behind it. -/
theorem nextNotice_cons_of_lt {m n : Notice} {ns : List Notice} (h : nextNotice ns = some n)
    (lower : m.priority < n.priority) : nextNotice (m :: ns) = some n := by
  rw [nextNotice, h]
  exact if_pos lower

/-- In a queue in occurrence order the notice of the highest priority, and of those the earliest, is next. -/
theorem nextNotice_of_most_urgent {ns : List Notice} {n : Notice}
    (ordered : ns.Pairwise (fun a b => a.occurrence < b.occurrence)) (waits : n ∈ ns)
    (urgent : ∀ m ∈ ns, m.priority < n.priority ∨ (m.priority = n.priority ∧ n.occurrence ≤ m.occurrence)) :
    nextNotice ns = some n := by
  induction ns with
  | nil => cases waits
  | cons a ns ih =>
    obtain ⟨first, ordered⟩ := List.pairwise_cons.mp ordered
    obtain ⟨under_first, under_rest⟩ := List.forall_mem_cons.mp urgent
    rcases List.mem_cons.mp waits with rfl | waits
    · refine nextNotice_cons_self fun m hm => ?_
      have below := under_rest m hm
      omega
    · have earlier : a.occurrence < n.occurrence := first n waits
      exact nextNotice_cons_of_lt (ih ordered waits under_rest) (by omega)

/-! ### What the idle transmitter takes (R178) -/

theorem takeNext_of_reply {s : State} {f : OutFrame} {rest : List OutFrame} (idle : s.lnk.tx = none)
    (replies : s.lnk.replies = f :: rest) :
    takeNext s = beginSend f (s.setLnk { s.lnk with replies := rest }) := by
  unfold takeNext
  rw [idle, replies]

theorem takeNext_of_notice {s : State} {n : Notice} (idle : s.lnk.tx = none) (noReply : s.lnk.replies = [])
    (next : nextNotice s.lnk.notices = some n) :
    takeNext s = beginSend n.frame (s.setLnk { s.lnk with notices := s.lnk.notices.erase n }) := by
  unfold takeNext
  rw [idle, noReply, next]

theorem takeNext_of_nothing {s : State} (noReply : s.lnk.replies = []) (noNotice : s.lnk.notices = []) :
    takeNext s = s := by
  unfold takeNext
  rw [noReply, noNotice]
  split <;> rfl

/-! ### The frame being sent while requests are carried out (R173, R174) -/

section Owners
variable (body : List Byte) (s : State)

theorem orderSubmit_tx : (orderSubmit body s).1.lnk.tx = s.lnk.tx := by
  unfold orderSubmit
  repeat' split
  all_goals rfl

theorem orderQuery_tx : (orderQuery body s).1.lnk.tx = s.lnk.tx := by
  unfold orderQuery
  split <;> rfl

theorem orderCancel_tx : (orderCancel body s).1.lnk.tx = s.lnk.tx := by
  unfold orderCancel
  split
  · rfl
  · split
    · rfl
    · exact (cancelOrder_calm _ _ .rfl).lnk.tx

theorem orderPriority_tx : (orderPriority body s).1.lnk.tx = s.lnk.tx := by
  unfold orderPriority
  dsimp only
  repeat' split
  case h_2.isFalse.isFalse.isFalse => exact (applyPriority_calm _ _ _ .rfl).lnk.tx
  all_goals rfl

theorem orderCollect_tx : (orderCollect body s).1.lnk.tx = s.lnk.tx := by
  unfold orderCollect
  split
  · rfl
  · split
    · exact (freeOrder_calm _ (releaseBins_calm _ .rfl)).lnk.tx
    · rfl

theorem magLoad_tx : (magLoad body s).1.lnk.tx = s.lnk.tx := by
  unfold magLoad
  split
  · rfl
  · split
    · rfl
    · exact (loadRoll_calm _ .rfl).lnk.tx

theorem magUnload_tx : (magUnload body s).1.lnk.tx = s.lnk.tx := by
  unfold magUnload
  repeat' split
  case h_2.isFalse.isFalse => exact (unload_calm _ .rfl).lnk.tx
  all_goals rfl

theorem calibrate_tx : (calibrate body s).1.lnk.tx = s.lnk.tx := by
  unfold calibrate
  split
  · rfl
  · split
    · rfl
    · split
      · rfl
      · rfl
      · exact (owePass_calm (setMark_calm _ _ .rfl)).lnk.tx

theorem sizeWrite_tx : (sizeWrite body s).1.lnk.tx = s.lnk.tx := by
  unfold sizeWrite
  dsimp only
  repeat' split
  all_goals rfl

theorem sizeRead_tx : (sizeRead body s).1.lnk.tx = s.lnk.tx := by
  unfold sizeRead
  dsimp only
  split <;> rfl

theorem profileWrite_tx : (profileWrite body s).1.lnk.tx = s.lnk.tx := by
  unfold profileWrite
  dsimp only
  split <;> rfl

theorem profileRead_tx : (profileRead body s).1.lnk.tx = s.lnk.tx := by
  unfold profileRead
  dsimp only
  split <;> rfl

theorem ladderWrite_tx : (ladderWrite body s).1.lnk.tx = s.lnk.tx := by
  unfold ladderWrite
  dsimp only
  split <;> rfl

theorem priceWrite_tx : (priceWrite body s).1.lnk.tx = s.lnk.tx := by
  unfold priceWrite
  repeat' split
  all_goals rfl

theorem priceRead_tx : (priceRead body s).1.lnk.tx = s.lnk.tx := by
  unfold priceRead
  split <;> rfl

theorem windowWrite_tx : (windowWrite body s).1.lnk.tx = s.lnk.tx := by
  unfold windowWrite
  dsimp only
  split <;> rfl

theorem windowRead_tx : (windowRead body s).1.lnk.tx = s.lnk.tx := by
  unfold windowRead
  dsimp only
  split <;> rfl

theorem settingEffect_calm (id v : Nat) : Calm s (settingEffect id v s) := by
  unfold settingEffect
  split
  · exact oweMagazine_calm .rfl
  · exact owePass_calm .rfl
  · exact oweWindow_calm .rfl
  · split
    · exact .rfl
    · exact disarmFlush_calm .rfl
  · exact realignBins_calm _ .rfl
  · exact realignHolding_calm _ _ .rfl
  · exact realignHolding_calm _ _ .rfl
  · exact .rfl

theorem settingWrite_tx : (settingWrite body s).1.lnk.tx = s.lnk.tx := by
  unfold settingWrite
  dsimp only
  repeat' split
  case h_1.isFalse.isFalse.isFalse => exact (settingEffect_calm _ _ _).lnk.tx
  all_goals rfl

theorem settingRead_tx : (settingRead body s).1.lnk.tx = s.lnk.tx := by
  unfold settingRead
  dsimp only
  split <;> rfl

theorem settingsSave_tx : (settingsSave body s).1.lnk.tx = s.lnk.tx := by
  unfold settingsSave
  split <;> rfl

theorem sorterResume_tx : (sorterResume body s).1.lnk.tx = s.lnk.tx := by
  unfold sorterResume
  split
  · exact (resumeSorter_calm .rfl).lnk.tx
  · rfl
  · rfl

theorem headReset_tx : (headReset body s).1.lnk.tx = s.lnk.tx := by
  unfold headReset
  split <;> rfl

/-- No owner of a request concerns the frame being sent. -/
theorem ownerAnswer_tx (kind : Nat) : (ownerAnswer kind body s).1.lnk.tx = s.lnk.tx := by
  unfold ownerAnswer
  split
  · exact orderSubmit_tx body s
  · exact orderQuery_tx body s
  · exact orderCancel_tx body s
  · exact orderPriority_tx body s
  · exact orderCollect_tx body s
  · exact magLoad_tx body s
  · exact magUnload_tx body s
  · exact calibrate_tx body s
  · exact sizeWrite_tx body s
  · exact sizeRead_tx body s
  · exact profileWrite_tx body s
  · exact profileRead_tx body s
  · exact ladderWrite_tx body s
  · rfl
  · exact priceWrite_tx body s
  · exact priceRead_tx body s
  · exact windowWrite_tx body s
  · exact windowRead_tx body s
  · exact settingWrite_tx body s
  · exact settingRead_tx body s
  · exact settingsSave_tx body s
  · rfl
  · exact (pathClear_calm .rfl).lnk.tx
  · exact sorterResume_tx body s
  · exact headReset_tx body s
  · rfl
  · rfl

end Owners

theorem startWaking_tx (s : State) : (startWaking s).lnk.tx = s.lnk.tx := by
  unfold startWaking
  split <;> rfl

theorem carryOut_tx (r : Request) (s : State) : (carryOut r s).lnk.tx = s.lnk.tx := by
  unfold carryOut
  split
  · exact startWaking_tx s
  · split
    · exact ownerAnswer_tx r.body s r.kind.toNat
    · rfl

/-- Requests carried out leave the frame being sent as it is. -/
theorem carryWaiting_tx (n : Nat) (s : State) : (carryWaiting n s).lnk.tx = s.lnk.tx := by
  induction n generalizing s with
  | zero => rfl
  | succ n ih =>
    unfold carryWaiting
    split
    next r rest _ =>
      split
      · exact ((ih _).trans (quiesce_keeps _).lnk.tx).trans (carryOut_tx r _)
      · rfl
    · rfl

/-! ### The end of a transmission (R178) -/

/-- The part as the transmitter finds it that has finished a frame: idle, nothing driven, no test due. -/
def afterFrame (s : State) : State := idleService ((begin s).setLnk { s.lnk with tx := none })

theorem onlyLink_afterFrame (s : State) : OnlyLink s (afterFrame s) := rfl

theorem linkSame_afterFrame (s : State) : LinkSame s (afterFrame s) := by
  constructor <;> rfl

theorem transmitDone_begin {s : State} (noReset : sendingResetReply s = false) :
    transmitDone (begin s) = (begin s).setLnk { s.lnk with tx := none } :=
  if_neg (Bool.eq_false_iff.mp noReset)

/-- No waiting request is carried out before the transmitter has taken its next frame. -/
theorem exec_transmitComplete {s : State} (h : Undisturbed s) (noReset : sendingResetReply s = false) :
    exec .transmitComplete s = .next (driveFeeds s (carryWaiting 2 (takeNext (afterFrame s)))) := by
  have held : (afterFrame s).lnk.waiting = [] ∨ (afterFrame s).lnk.resetPending = true ∨
      4 ≤ (afterFrame s).lnk.replies.length := h.imp_right And.right
  change event transmitDone s = _
  unfold event finish linkService
  rw [transmitDone_begin noReset, quiesce_of_nothing_due _ rfl]
  change Host.Outcome.next (driveFeeds s (carryWaiting 2 (takeNext (carryWaiting 2 (afterFrame s))))) = _
  rw [carryWaiting_of_held held]

/-- A change of LNK alone commands the feeds nothing. -/
theorem OnlyLink.driveFeeds_eq {s t : State} (h : OnlyLink s t) : driveFeeds s t = t :=
  driveFeeds_same (by rw [h]; rfl) (by rw [h]; rfl)

/-- With no request waiting the transmitter's next frame is all that a finished frame brings about. -/
theorem exec_transmitComplete_of_none_waiting {s : State} (h : Undisturbed s) (noReset : sendingResetReply s = false)
    (waiting : s.lnk.waiting = []) : exec .transmitComplete s = .next (takeNext (afterFrame s)) := by
  have none_waiting : (takeNext (afterFrame s)).lnk.waiting = [] := (takeNext_linkSame _).waiting.trans waiting
  rw [exec_transmitComplete h noReset, carryWaiting_of_held (.inl none_waiting),
    ((onlyLink_afterFrame s).trans (takeNext_onlyLink _)).driveFeeds_eq]

/-- The transmitter's next frame concerns LNK alone, and there neither framers, requests nor counts. -/
theorem takeNext_afterFrame_keeps (s : State) :
    LinkSame s (takeNext (afterFrame s)) ∧ OnlyLink s (takeNext (afterFrame s)) :=
  ⟨(linkSame_afterFrame s).trans (takeNext_linkSame _), (onlyLink_afterFrame s).trans (takeNext_onlyLink _)⟩

/-- Settles O29: what the idle transmitter takes, by what waits; requests carried out after it, in the place a reply
frees, leave the frame it has begun. -/
theorem transmitterTakesNext : Obligations.TransmitterTakesNext := by
  unfold Obligations.TransmitterTakesNext
  refine ⟨fun s f rest h noReset replies => ?reply, fun s n h noReset waiting noReply ordered waits urgent => ?notice,
    fun s h noReset waiting noReply noNotice => ?nothing⟩
  case reply =>
    have taken := takeNext_of_reply (s := afterFrame s) rfl replies
    refine ⟨_, exec_transmitComplete h noReset, ?_, fun waiting => ?_⟩
    · rw [driveFeeds_lnk, carryWaiting_tx, taken]
      rfl
    · obtain ⟨same, only⟩ := takeNext_afterFrame_keeps s
      have alone := (exec_transmitComplete h noReset).symm.trans
        (exec_transmitComplete_of_none_waiting h noReset waiting)
      rw [Host.Outcome.next.inj alone]
      refine ⟨?_, ?_, ?_, same, only⟩ <;> rw [taken] <;> rfl
  case notice =>
    have taken := takeNext_of_notice (s := afterFrame s) rfl noReply (nextNotice_of_most_urgent ordered waits urgent)
    refine ⟨_, exec_transmitComplete_of_none_waiting h noReset waiting, ?_, ?_, ?_, takeNext_afterFrame_keeps s⟩
    · rw [taken]
      rfl
    · rw [taken]
      rfl
    · rw [taken]
      exact noReply
  case nothing =>
    have taken := takeNext_of_nothing (s := afterFrame s) noReply noNotice
    refine ⟨_, exec_transmitComplete_of_none_waiting h noReset waiting, ?_, takeNext_afterFrame_keeps s⟩
    rw [taken]
    rfl

end Sys2Proof.Machine
end
